-- ==== Sys2Proof/Word.lean ====
section
/-! DEFINITION. The two word types of the engine: a byte (00_scope.md R10) and the 10-bit event word
(30_encoding.md R70). Byte arithmetic is BitVec arithmetic, which wraps modulo 256 as R10 says. -/

namespace Sys2Proof

/-- Every datum the engine handles is one unsigned byte (R7, R10). -/
abbrev Byte := BitVec 8

/-- The word on the input port `ev` (10_state.md R40, 30_encoding.md R70): kind in bits 9..8, byte in bits 7..0. -/
abbrev EvWord := BitVec 10

end Sys2Proof
end

