-- ==== Sys2Proof/Config.lean ====
section
/-! DEFINITION. What an implementation fixes (00_scope.md R8) and the values the spec leaves free
(93_implementation_defined.md). A free value is an opaque constant: nothing can be proved of which value it is. -/

namespace Sys2Proof

/-- The parameter bytes of a ChangeAddress request (44_dispatch.md R176). -/
inductive CaParam where
  | newAddress | currentAddressEcho | xorCheckByte
deriving DecidableEq, Repr, Inhabited

/-- The ChangeAddress confirmation `CA_REPLY` (R8, 92_eei_decisions.md D19): the default `[IN_CAP, OUT_CAP]`, two
fixed bytes, two of the request's parameter bytes (D19's other reading), or any function of newAddress,
currentAddressEcho and xorCheckByte, as a table of known values; a request the table does not list has a free
confirmation (log 5). -/
inductive CaReply where
  | capacities
  | bytes (r0 r1 : Byte)
  | request (r0 r1 : CaParam)
  | table (rows : List ((Byte × Byte × Byte) × (Byte × Byte)))
deriving DecidableEq, Repr, Inhabited

/-- The configuration parameters of R8 as plain data. `handler` lists known answers of `H`: an input and its reply,
or none for a handler that never returns; an input it does not list has a free reply (log 4). -/
structure Params where
  bufCap : Nat
  inCap : Nat
  outCap : Nat
  handler : List (List Byte × Option (List Byte))
  svcEcho : Byte
  svcDescribe : Byte
  svcChangeAddr : Byte
  caReply : CaReply
deriving DecidableEq, Repr

/-- The value rules of R8, and the handler's contract of 44_dispatch.md R178 for every listed answer. -/
def Params.wf (p : Params) : Bool :=
  decide (4 ≤ p.bufCap) && decide (p.bufCap ≤ 255) && decide (p.inCap ≤ p.bufCap) && decide (p.outCap ≤ p.bufCap)
    && decide (p.svcEcho ≠ p.svcDescribe) && decide (p.svcEcho ≠ p.svcChangeAddr)
    && decide (p.svcDescribe ≠ p.svcChangeAddr)
    && p.handler.all fun row => row.2.any fun r => decide (r.length = p.outCap)

/-- Parameters together with the check that they are within R8's ranges. The default values only show that such
parameters exist; `Config.board` is not known to be them. -/
structure Board where
  params : Params :=
    { bufCap := 4, inCap := 0, outCap := 0, handler := [], svcEcho := 0, svcDescribe := 1, svcChangeAddr := 2,
      caReply := .capacities }
  legal : params.wf = true := by decide
deriving Inhabited

/-- The parameters of the instance that `State.reset` describes: any within R8's ranges (log 3). -/
opaque Config.board : Board

/-- STORE_INIT (R8): the byte the persistent store presents at the first reset (log 23). -/
opaque Config.storeInit : Byte

/-- BUF_INIT (R8, 70_reset_and_hazards.md R220): draw number, buffer index (log 6). -/
opaque Config.bufInit : Nat → Nat → Byte

/-- OOR (R8, 20_memory.md R52): the byte a read at or above BUF_CAP returns, by draw number (log 7). -/
opaque Config.outOfRange : Nat → Byte

/-- The registers whose value after a reset is unspecified (10_state.md R39). -/
inductive FreeReg where
  | grpAddr | rxLen | rxIdx | txLen | txIdx | txMark
deriving DecidableEq, Repr

/-- The unspecified value of a register after a RESET event, by draw number (R39, R220; log 9). -/
opaque Config.unspecified : Nat → FreeReg → Byte

/-- Byte `i` of the reply `H` gives to an input the parameter table does not list (R8, 44_dispatch.md R178; log 4). -/
opaque Config.handlerByte : List Byte → Nat → Byte

/-- The confirmation of a request that the table of `CA_REPLY` does not list, by its newAddress, currentAddressEcho and
xorCheckByte (log 5). -/
opaque Config.caReply : Byte → Byte → Byte → Byte × Byte

end Sys2Proof
end

