-- ==== Sys2Proof/Syntax.lean ====
section
/-! DEFINITION. The instructions: one constructor per row of spec/opcode_table.json (30_encoding.md R79), and the
names an instruction's reading depends on (the states, the markers, the reading context). -/

namespace Sys2Proof

/-- The receive state (10_state.md R23). -/
inductive RxState where
  | idle | waitAddress | waitGroupMask | waitLength | waitData | waitChecksum
deriving DecidableEq, Repr

/-- The numeric code the spec gives a receive state (R23). Nothing depends on it. -/
def RxState.code : RxState → Nat
  | .idle => 0
  | .waitAddress => 1
  | .waitGroupMask => 2
  | .waitLength => 3
  | .waitData => 4
  | .waitChecksum => 5

/-- The transmit state (10_state.md R31). -/
inductive TxState where
  | idle | sendStart | sendAddress | sendLength | sendData
deriving DecidableEq, Repr

/-- The numeric code the spec gives a transmit state (R31). Nothing depends on it. -/
def TxState.code : TxState → Nat
  | .idle => 0
  | .sendStart => 1
  | .sendAddress => 2
  | .sendLength => 3
  | .sendData => 4

/-- The three start markers (00_scope.md R7, 30_encoding.md R77). -/
inductive Marker where
  | svc | reg | grp
deriving DecidableEq, Repr

/-- What the receive codec makes of one wire byte (30_encoding.md R72, first table). -/
inductive RxClass where
  | esc
  | mark (m : Marker)
  | data (v : Byte)
deriving DecidableEq, Repr

/-- The two checksum accumulators (41_checksum.md). -/
inductive Accum where
  | rx | tx
deriving DecidableEq, Repr

/-- What payload byte 0 of a service frame selects (44_dispatch.md R173). -/
inductive SubCommand where
  | echo | describe | changeAddr | unknown
deriving DecidableEq, Repr

/-- What of the state decides which row an event word is (30_encoding.md R72, 43_tx.md R150).
`txMore` is `txIdx < txLen`. -/
structure Ctx where
  rxEsc : Bool
  rxState : RxState
  isGrp : Bool
  txState : TxState
  txMore : Bool
deriving DecidableEq, Repr

/-- The component primitives (30_encoding.md R79), each with the accumulator its caller names (41_checksum.md). -/
inductive Component where
  | encode
  | decode
  | csumInit (acc : Accum)
  | csumAdd (acc : Accum)
  | csumFinal (acc : Accum)
  | csumCheck (acc : Accum)
deriving DecidableEq, Repr

/-- Where a word is read: on the port `ev` in a context; as the checksum byte of a frame that passed, with what
R170 and R173 select on; or as the operand of a component. The last two are not separate events (R79; log 13). -/
inductive Site where
  | ev (c : Ctx)
  | dispatch (isSvc isGrp : Bool) (sub : SubCommand)
  | component (k : Component)
deriving DecidableEq, Repr

/-- The rows of spec/opcode_table.json. `v` is a decoded byte (30_encoding.md R72), `c` the checksum byte as
received, `b` a wire byte. -/
inductive Instr where
  | reset
  | rxEsc
  | rxMarkSvc
  | rxMarkReg
  | rxMarkGrp
  | rxIdleData (v : Byte)
  | rxAddrReply (v : Byte)
  | rxAddrUni (v : Byte)
  | rxAddrGrp (v : Byte)
  | rxGmask (v : Byte)
  | rxLen (v : Byte)
  | rxData (v : Byte)
  | rxCsum (v : Byte)
  | txIdle
  | txStart
  | txAddr
  | txLen
  | txData
  | txCsum
  | dispatchCmd (c : Byte)
  | dispatchGrp (c : Byte)
  | svcEcho (c : Byte)
  | svcDescribe (c : Byte)
  | svcChangeAddr (c : Byte)
  | svcUnknown (c : Byte)
  | encode (v : Byte)
  | decode (b : Byte)
  | csumInit (acc : Accum)
  | csumAdd (acc : Accum) (v : Byte)
  | csumFinal (acc : Accum)
  | csumCheck (acc : Accum) (c : Byte)
deriving DecidableEq, Repr

end Sys2Proof
end

