-- ==== Sys2Proof/WellFormed.lean ====
section
/-! DEFINITION. Which instruction terms the opcode table admits: the checks on the operands alone (`Instr.wf`) and
the condition column of each row over the reading context (`Site.admits`). Written from the table and from
30_encoding.md R72, independently of the decoder. -/

namespace Sys2Proof

/-- The operand conditions of the table: an address byte is a reply address exactly if its bit 7 is set
(30_encoding.md R76, R81). No other row restricts its operand. -/
def Instr.wf : Instr → Bool
  | .rxAddrReply v => v.msb
  | .rxAddrUni v => !v.msb
  | .rxAddrGrp v => !v.msb
  | .reset | .rxEsc | .rxMarkSvc | .rxMarkReg | .rxMarkGrp => true
  | .rxIdleData _ | .rxGmask _ | .rxLen _ | .rxData _ | .rxCsum _ => true
  | .txIdle | .txStart | .txAddr | .txLen | .txData | .txCsum => true
  | .dispatchCmd _ | .dispatchGrp _ => true
  | .svcEcho _ | .svcDescribe _ | .svcChangeAddr _ | .svcUnknown _ => true
  | .encode _ | .decode _ => true
  | .csumInit _ | .csumAdd _ _ | .csumFinal _ | .csumCheck _ _ => true

/-- The table's "DATA class" for a decoded value: any value after a prefix, 0x04..0xFF without (30_encoding.md R72). -/
def dataClass (rxEsc : Bool) (v : Byte) : Bool := rxEsc || decide (4 ≤ v.toNat)

/-- The condition column of spec/opcode_table.json: at which sites a row applies. -/
def Site.admits : Site → Instr → Bool
  | .ev _, .reset => true
  | .ev c, .rxEsc => !c.rxEsc
  | .ev c, .rxMarkSvc => !c.rxEsc
  | .ev c, .rxMarkReg => !c.rxEsc
  | .ev c, .rxMarkGrp => !c.rxEsc
  | .ev c, .rxIdleData v => c.rxState = .idle && dataClass c.rxEsc v
  | .ev c, .rxAddrReply v => c.rxState = .waitAddress && dataClass c.rxEsc v
  | .ev c, .rxAddrUni v => c.rxState = .waitAddress && !c.isGrp && dataClass c.rxEsc v
  | .ev c, .rxAddrGrp v => c.rxState = .waitAddress && c.isGrp && dataClass c.rxEsc v
  | .ev c, .rxGmask v => c.rxState = .waitGroupMask && dataClass c.rxEsc v
  | .ev c, .rxLen v => c.rxState = .waitLength && dataClass c.rxEsc v
  | .ev c, .rxData v => c.rxState = .waitData && dataClass c.rxEsc v
  | .ev c, .rxCsum v => c.rxState = .waitChecksum && dataClass c.rxEsc v
  | .ev c, .txIdle => c.txState = .idle
  | .ev c, .txStart => c.txState = .sendStart
  | .ev c, .txAddr => c.txState = .sendAddress
  | .ev c, .txLen => c.txState = .sendLength
  | .ev c, .txData => c.txState = .sendData && c.txMore
  | .ev c, .txCsum => c.txState = .sendData && !c.txMore
  | .dispatch isSvc isGrp _, .dispatchCmd _ => !isSvc && !isGrp
  | .dispatch isSvc isGrp _, .dispatchGrp _ => !isSvc && isGrp
  | .dispatch isSvc _ sub, .svcEcho _ => isSvc && sub = .echo
  | .dispatch isSvc _ sub, .svcDescribe _ => isSvc && sub = .describe
  | .dispatch isSvc _ sub, .svcChangeAddr _ => isSvc && sub = .changeAddr
  | .dispatch isSvc _ sub, .svcUnknown _ => isSvc && sub = .unknown
  | .component k, .encode _ => k = .encode
  | .component k, .decode _ => k = .decode
  | .component k, .csumInit acc => k = .csumInit acc
  | .component k, .csumAdd acc _ => k = .csumAdd acc
  | .component k, .csumFinal acc => k = .csumFinal acc
  | .component k, .csumCheck acc _ => k = .csumCheck acc
  | _, _ => false

end Sys2Proof
end

