-- ==== Sys2Proof/Decode.lean ====
section
/-! DEFINITION. The constants of 00_scope.md R7, the receive codec's classification (30_encoding.md R72), the decoder
of a word at a site (R70, R79), the encoder, and the wire form of a logical byte and of a request (40_codec.md R102,
30_encoding.md R74, R84). -/

namespace Sys2Proof

/-- Escape prefix (R7). The literals of this section are unaudited (91_not_in_source.md N17; log 17, UNVERIFIED). -/
def ESC : Byte := 0x00
/-- Start marker of a service frame (R7). -/
def MK_SVC : Byte := 0x01
/-- Start marker of a regular frame (R7). -/
def MK_REG : Byte := 0x02
/-- Start marker of a group frame (R7). -/
def MK_GRP : Byte := 0x03
/-- Highest reserved value: bytes at or below it are escaped (R7). -/
def MK_MAX : Byte := 0x03
/-- Additive shift of an escaped byte (R7). -/
def SHIFT : Byte := 4
/-- Reply marker bit of an address byte (R7). -/
def REPLY_BIT : Byte := 0x80

/-- The byte of a start marker (R7). -/
def Marker.byte : Marker → Byte
  | .svc => MK_SVC
  | .reg => MK_REG
  | .grp => MK_GRP

/-- The kind field of an event word (R70). -/
def EvWord.kind (w : EvWord) : BitVec 2 := w.extractLsb' 8 2

/-- The byte field of an event word (R70). -/
def EvWord.byte (w : EvWord) : Byte := w.extractLsb' 0 8

/-- The kinds of R70. -/
def KIND_RX : BitVec 2 := 0b00
/-- R70. -/
def KIND_TICK : BitVec 2 := 0b01
/-- R70. -/
def KIND_RESET : BitVec 2 := 0b10

/-- An event word from its two fields (R70). -/
def evWord (kind : BitVec 2) (b : Byte) : EvWord := kind ++ b

/-- DECODE as a function (40_codec.md R101): the class of wire byte `b` under the escape flag, and the flag after. -/
def decodeByte (rxEsc : Bool) (b : Byte) : RxClass × Bool :=
  if rxEsc then (.data (b - SHIFT), false)
  else if b = ESC then (.esc, true)
  else if b = MK_SVC then (.mark .svc, false)
  else if b = MK_REG then (.mark .reg, false)
  else if b = MK_GRP then (.mark .grp, false)
  else (.data b, false)

/-- The reply marker `v[7]` of an address byte (30_encoding.md R76). -/
def hasReplyBit (v : Byte) : Bool := (v &&& REPLY_BIT) == REPLY_BIT

/-- The second stage of R72: which row a decoded data byte is. -/
def classifyData (c : Ctx) (v : Byte) : Instr :=
  match c.rxState with
  | .idle => .rxIdleData v
  | .waitAddress => if hasReplyBit v then .rxAddrReply v else if c.isGrp then .rxAddrGrp v else .rxAddrUni v
  | .waitGroupMask => .rxGmask v
  | .waitLength => .rxLen v
  | .waitData => .rxData v
  | .waitChecksum => .rxCsum v

/-- Which row a received byte is (R72, 42_rx.md R120). -/
def decodeRx (c : Ctx) (b : Byte) : Instr :=
  match (decodeByte c.rxEsc b).1 with
  | .esc => .rxEsc
  | .mark .svc => .rxMarkSvc
  | .mark .reg => .rxMarkReg
  | .mark .grp => .rxMarkGrp
  | .data v => classifyData c v

/-- Which row a tick is (43_tx.md R150). -/
def decodeTick (c : Ctx) : Instr :=
  match c.txState with
  | .idle => .txIdle
  | .sendStart => .txStart
  | .sendAddress => .txAddr
  | .sendLength => .txLen
  | .sendData => if c.txMore then .txData else .txCsum

/-- Which operation a frame that passed its checksum selects (44_dispatch.md R170, R173). -/
def selectDispatch (isSvc isGrp : Bool) (sub : SubCommand) (c : Byte) : Instr :=
  if isSvc then
    match sub with
    | .echo => .svcEcho c
    | .describe => .svcDescribe c
    | .changeAddr => .svcChangeAddr c
    | .unknown => .svcUnknown c
  else if isGrp then .dispatchGrp c
  else .dispatchCmd c

/-- A component primitive with its operand byte (spec/opcode_table.json, format Primitive). CSUM_INIT and CSUM_FINAL
take no operand (41_checksum.md R110, R112): their byte is the register they read (log 13). -/
def selectComponent (k : Component) (b : Byte) : Instr :=
  match k with
  | .encode => .encode b
  | .decode => .decode b
  | .csumInit acc => .csumInit acc
  | .csumAdd acc => .csumAdd acc b
  | .csumFinal acc => .csumFinal acc
  | .csumCheck acc => .csumCheck acc b

/-- Why a word is rejected. `reservedKind`: an event word of kind `11` (30_encoding.md R71). `notAByte`: a word with
non-zero upper bits where the table's row has a byte (formats Dispatch and Primitive). -/
inductive DecodeError where
  | reservedKind (w : EvWord)
  | notAByte (w : EvWord)
deriving DecidableEq, Repr

/-- The decoder: which row of the opcode table a word is at a site (R70 to R72, R79), total on every word. -/
def decode (site : Site) (w : EvWord) : Except DecodeError Instr :=
  match site with
  | .ev c =>
    if w.kind = KIND_RX then .ok (decodeRx c w.byte)
    else if w.kind = KIND_TICK then .ok (decodeTick c)
    else if w.kind = KIND_RESET then .ok .reset
    else .error (.reservedKind w)
  | .dispatch isSvc isGrp sub =>
    if w.kind = KIND_RX then .ok (selectDispatch isSvc isGrp sub w.byte) else .error (.notAByte w)
  | .component k =>
    if w.kind = KIND_RX then .ok (selectComponent k w.byte) else .error (.notAByte w)

/-- The wire byte that carries a decoded value under the escape flag (R72). -/
def wireByte (rxEsc : Bool) (v : Byte) : Byte := if rxEsc then v + SHIFT else v

/-- The encoder: the word of an instruction, from the table's match column and its byte field. `rxEsc` is the escape
flag under which a data byte will be read. Ignored bits are written as 0. -/
def encode (rxEsc : Bool) : Instr → EvWord
  | .reset => evWord KIND_RESET 0
  | .rxEsc => evWord KIND_RX ESC
  | .rxMarkSvc => evWord KIND_RX MK_SVC
  | .rxMarkReg => evWord KIND_RX MK_REG
  | .rxMarkGrp => evWord KIND_RX MK_GRP
  | .rxIdleData v => evWord KIND_RX (wireByte rxEsc v)
  | .rxAddrReply v => evWord KIND_RX (wireByte rxEsc v)
  | .rxAddrUni v => evWord KIND_RX (wireByte rxEsc v)
  | .rxAddrGrp v => evWord KIND_RX (wireByte rxEsc v)
  | .rxGmask v => evWord KIND_RX (wireByte rxEsc v)
  | .rxLen v => evWord KIND_RX (wireByte rxEsc v)
  | .rxData v => evWord KIND_RX (wireByte rxEsc v)
  | .rxCsum v => evWord KIND_RX (wireByte rxEsc v)
  | .txIdle => evWord KIND_TICK 0
  | .txStart => evWord KIND_TICK 0
  | .txAddr => evWord KIND_TICK 0
  | .txLen => evWord KIND_TICK 0
  | .txData => evWord KIND_TICK 0
  | .txCsum => evWord KIND_TICK 0
  | .dispatchCmd c => evWord KIND_RX c
  | .dispatchGrp c => evWord KIND_RX c
  | .svcEcho c => evWord KIND_RX c
  | .svcDescribe c => evWord KIND_RX c
  | .svcChangeAddr c => evWord KIND_RX c
  | .svcUnknown c => evWord KIND_RX c
  | .encode v => evWord KIND_RX v
  | .decode b => evWord KIND_RX b
  | .csumInit _ => evWord KIND_RX 0
  | .csumAdd _ v => evWord KIND_RX v
  | .csumFinal _ => evWord KIND_RX 0
  | .csumCheck _ c => evWord KIND_RX c

/-- The escape flag a site reads under: only the port `ev` has one. -/
def Site.rxEsc : Site → Bool
  | .ev c => c.rxEsc
  | .dispatch _ _ _ => false
  | .component _ => false

/-- The pure encoding function `enc` (40_codec.md R102, 30_encoding.md R73). -/
def enc (x : Byte) : List Byte := if x ≤ MK_MAX then [ESC, x + SHIFT] else [x]

/-- A request of the controller: the three frame kinds of 30_encoding.md R74 and R84 with their fields. -/
inductive Request where
  | svc (a : Byte) (payload : List Byte)
  | reg (a : Byte) (payload : List Byte)
  | grp (g m : Byte) (payload : List Byte)
deriving DecidableEq, Repr

/-- The start marker of a request (R77). -/
def Request.marker : Request → Marker
  | .svc _ _ => .svc
  | .reg _ _ => .reg
  | .grp _ _ _ => .grp

/-- The payload of a request (R74). -/
def Request.payload : Request → List Byte
  | .svc _ p => p
  | .reg _ p => p
  | .grp _ _ p => p

/-- The summed fields of a request in wire order: address or group address and mask, length, payload (R74, R84). -/
def Request.body : Request → List Byte
  | .svc a p => a :: BitVec.ofNat 8 p.length :: p
  | .reg a p => a :: BitVec.ofNat 8 p.length :: p
  | .grp g m p => g :: m :: BitVec.ofNat 8 p.length :: p

/-- The sum of a list of bytes modulo 256 (41_checksum.md R111). -/
def byteSum (xs : List Byte) : Byte := xs.foldl (· + ·) 0

/-- The checksum byte of a frame with these summed fields (R74, 41_checksum.md R112). -/
def checksumOf (xs : List Byte) : Byte := -(byteSum xs)

/-- The wire bytes of a request after its marker when its last byte is `c` (R84 with `c` the checksum). -/
def Request.tailWith (r : Request) (c : Byte) : List Byte := (r.body ++ [c]).flatMap enc

/-- `send` (R84): the wire bytes of a request. -/
def Request.wire (r : Request) : List Byte := r.marker.byte :: r.tailWith (checksumOf r.body)

/-- One `rx XX` event word (R84). -/
def rxWord (b : Byte) : EvWord := evWord KIND_RX b

/-- One `tick` event word (R84). -/
def tickWord : EvWord := evWord KIND_TICK 0

/-- One `reset` event word (R84). -/
def resetWord : EvWord := evWord KIND_RESET 0

/-- The reading context right after reset: nothing pending, both machines Idle (10_state.md R39). -/
def resetCtx : Ctx := { rxEsc := false, rxState := .idle, isGrp := false, txState := .idle, txMore := false }

/-- The event word of an instruction's bits; bits that do not fit ten make a word of the reserved kind. -/
def tableWord (nbits w : Nat) : EvWord :=
  let x := w % 2 ^ nbits
  if x < 1024 then BitVec.ofNat 10 x else 0x300

/-- The instruction the decoder reads from a table word in the context right after reset. Rows share words and the
state tells them apart (30_encoding.md R72), so this is the row those bits are as the first event (log 2). -/
def decodeTableWord (nbits w : Nat) : Option Instr :=
  match decode (.ev resetCtx) (tableWord nbits w) with
  | .ok i => some i
  | .error _ => none

end Sys2Proof
end

