-- ==== Sys2Proof/Machine/State.lean ====
section
/-! DEFINITION. The state of one engine instance (10_state.md R20), its ports (R40) and the output record of a step
(R41), the outcome labels (60_exceptions.md R202), the ways a step can stop, and the state right after reset (R39). -/

namespace Sys2Proof.Machine

/-- The outcome labels of 60_exceptions.md R202: model-only names of paths, not ports of the hardware. -/
inductive Label where
  | resync | checksumFail | replyOverheard | addrMismatch | groupMismatch | overflowDrop | svcUnknown | svcRejected
  | acceptCmd | acceptGrp | acceptEcho | acceptDescribe | acceptChangeAddr
deriving DecidableEq, Repr

/-- The code of a label (R202). -/
def Label.code : Label → Nat
  | .resync => 1
  | .checksumFail => 2
  | .replyOverheard => 3
  | .addrMismatch => 4
  | .groupMismatch => 5
  | .overflowDrop => 6
  | .svcUnknown => 7
  | .svcRejected => 8
  | .acceptCmd => 16
  | .acceptGrp => 17
  | .acceptEcho => 18
  | .acceptDescribe => 19
  | .acceptChangeAddr => 20

/-- What a component primitive returns to its caller: ENCODE's `done`, DECODE's class and value, CSUM_FINAL's byte,
CSUM_CHECK's verdict (40_codec.md R100, R101; 41_checksum.md R112, R113; log 12). -/
inductive PrimResult where
  | done (d : Bool)
  | decoded (c : RxClass)
  | value (b : Byte)
  | accepted (ok : Bool)
deriving DecidableEq, Repr

/-- The output record of one step (10_state.md R41) on the output ports of R40: `wire` is `tx_valid` with `tx_data`,
`store` is `store_we` with `store_wdata`, `hcall` is `h_call` with `h_arg`. `result` is the model's own (log 12). -/
structure Output where
  wire : Option Byte := none
  store : Option Byte := none
  hcall : Option (List Byte) := none
  labels : List Label := []
  result : Option PrimResult := none
deriving DecidableEq, Repr

/-- The state. The registers are the tuple of 10_state.md R20; `events`, `storeRdata` and `out` are the ports of R40;
`params` is the instance's configuration (00_scope.md R8; log 3); `bufInit` and `draws` are the model's own (logs 6, 18).
`buf` lists, by rising index, the bytes of the buffer that differ from the reset draw `bufInit`. -/
structure State where
  addr : Byte
  rxState : RxState
  rxEsc : Bool
  isSvc : Bool
  isGrp : Bool
  rxSum : Byte
  grpAddr : Byte
  rxLen : Byte
  rxIdx : Byte
  buf : List Host.Cell
  txState : TxState
  txEsc : Bool
  txSum : Byte
  txLen : Byte
  txIdx : Byte
  txMark : Byte
  events : List EvWord
  storeRdata : Byte
  out : Output
  params : Params
  bufInit : List Byte
  draws : Nat
deriving DecidableEq, Repr

/-- Why a step stops. Both are the "no step" of 60_exceptions.md R200 for a handler outside its contract (44_dispatch.md
R178); no contract-keeping handler reaches them. -/
inductive Fault where
  /-- Raised by the handler call of DISPATCH_CMD and DISPATCH_GRP when `H` does not return (R178). Safe: the model
  stops where the spec has no step. -/
  | handlerBlocks
  /-- Raised by the handler call of DISPATCH_CMD and DISPATCH_GRP when `H` answers with a length other than OUT_CAP
  (R178). Safe: the model stops where the spec has no step. -/
  | handlerReplyLength
deriving DecidableEq, Repr

/-- Why a step is refused. -/
inductive Refusal where
  /-- Raised by an arm of `exec` that has no meaning yet; no arm does. Safe. -/
  | notModelled (mnemonic : String)
  /-- Raised by `step` for an event word the decoder rejects: kind `11` (30_encoding.md R71). Safe: the spec says a
  model refuses it, and the refusal ends the run, which is the mark of 60_exceptions.md R200 (log 16). -/
  | rejectedWord (e : DecodeError)
deriving DecidableEq, Repr

/-- The draw BUF_INIT of draw number `k` (00_scope.md R8). -/
def drawBuffer (cap k : Nat) : List Byte := (List.range cap).map (Config.bufInit k)

/-- The engine right after reset (10_state.md R39) with parameters `p` and the store presenting `init`. The registers
R39 leaves unspecified are 0 here (DESIGN CHOICE, log 8); the buffer is a draw (log 6); no event is pending (log 1). -/
def State.resetWith (p : Params) (init : Byte) : State :=
  { addr := init
    rxState := .idle
    rxEsc := false
    isSvc := false
    isGrp := false
    rxSum := 0
    grpAddr := 0
    rxLen := 0
    rxIdx := 0
    buf := []
    txState := .idle
    txEsc := false
    txSum := 0
    txLen := 0
    txIdx := 0
    txMark := 0
    events := []
    storeRdata := init
    out := {}
    params := p
    bufInit := drawBuffer p.bufCap 0
    draws := 1 }

/-- The engine right after reset, with the instance's parameters and stored address left open (logs 3, 23). -/
def State.reset : State := State.resetWith Config.board.params Config.storeInit

end Sys2Proof.Machine
end

