-- ==== Sys2Proof/Machine/Flags.lean ====
section
/-! DEFINITION. The checksum accumulators (41_checksum.md) and the frame-kind flags of a start marker (42_rx.md R121):
every status the engine computes. -/

namespace Sys2Proof.Machine

/-- The accumulator an operation names: `rxSum` or `txSum` (41_checksum.md). -/
def accumValue (acc : Accum) (s : State) : Byte :=
  match acc with
  | .rx => s.rxSum
  | .tx => s.txSum

/-- Write one accumulator. -/
def setAccum (acc : Accum) (x : Byte) (s : State) : State :=
  match acc with
  | .rx => { s with rxSum := x }
  | .tx => { s with txSum := x }

/-- CSUM_INIT (R110). -/
def csumInit (acc : Accum) (s : State) : State := setAccum acc 0 s

/-- CSUM_ADD (R111): addition modulo 256. -/
def csumAdd (acc : Accum) (v : Byte) (s : State) : State := setAccum acc (accumValue acc s + v) s

/-- CSUM_FINAL (R112): the two's complement of the sum. -/
def csumFinal (acc : Accum) (s : State) : Byte := -(accumValue acc s)

/-- CSUM_CHECK (R113): add the checksum byte, accept if the sum is zero. -/
def csumCheck (acc : Accum) (c : Byte) (s : State) : Bool × State :=
  let t := csumAdd acc c s
  (accumValue acc t == 0, t)

/-- The frame-kind flags a marker sets (10_state.md R25, 42_rx.md R121): `isSvc`, `isGrp`. -/
def setFrameKind (m : Marker) (s : State) : State :=
  { s with isSvc := m == .svc, isGrp := m == .grp }

end Sys2Proof.Machine
end

