-- ==== Sys2Proof/Machine/Ops.lean ====
section
/-! DEFINITION. The named operations over the buffer, the ports and the registers (00_scope.md R11): MemRead, MemWrite,
emit, persist, label, discard, the codec steps, prime, and taking an event from the port. The engine has no trap and no
return from one (60_exceptions.md R200, R206); `discard` is its only error action (R201). -/

namespace Sys2Proof.Machine

/-- The outcome of a step of the engine. -/
abbrev Result := Host.Outcome State Fault Refusal

/-- Go on from a next state; a stop stays a stop. -/
def onNext (o : Result) (f : State → State) : Result :=
  match o with
  | .next s => .next (f s)
  | .fault e => .fault e
  | .refused e => .refused e

/-! ### The buffer (20_memory.md) -/

/-- What an unlisted index of the buffer reads as: its byte of the last reset draw (20_memory.md R55; log 6). -/
def unlistedByte (init : List Byte) (i : Nat) : Byte := init.getD i (Config.bufInit 0 i)

/-- The listed byte at an index. -/
def bufLookup : List Host.Cell → Nat → Option Byte
  | [], _ => none
  | (a, b) :: m, i => if a = i then some b else bufLookup m i

/-- Write `v` at index `i`, where `d` is what index `i` reads as when unlisted: a listed byte never equals it. -/
def bufInsert (d : Byte) : List Host.Cell → Nat → Byte → List Host.Cell
  | [], i, v => if v = d then [] else [(i, v)]
  | (a, b) :: m, i, v =>
    if a < i then (a, b) :: bufInsert d m i v
    else if a = i then if v = d then m else (i, v) :: m
    else if v = d then (a, b) :: m else (i, v) :: (a, b) :: m

/-- The byte index `i` of the buffer holds, for `i < BUF_CAP`. -/
def State.bufByte (s : State) (i : Nat) : Byte := (bufLookup s.buf i).getD (unlistedByte s.bufInit i)

/-- All addresses of a list of cells lie in `lo..cap-1`, strictly rising, and no byte equals the unlisted one. -/
def cellsWf (init : List Byte) (cap : Nat) : Nat → List Host.Cell → Bool
  | _, [] => true
  | lo, (a, b) :: m => decide (lo ≤ a) && decide (a < cap) && decide (b ≠ unlistedByte init a) && cellsWf init cap (a + 1) m

/-- The buffer's canonical form: indices strictly rising and below BUF_CAP, no byte equal to its reset draw. -/
def Memory.wf (s : State) : Bool := cellsWf s.bufInit s.params.bufCap 0 s.buf

/-- MemRead (20_memory.md R52): at or above BUF_CAP a fresh free byte, one draw per read (log 7). -/
def memRead (i : Nat) (s : State) : Byte × State :=
  if i < s.params.bufCap then (s.bufByte i, s)
  else (Config.outOfRange s.draws, { s with draws := s.draws + 1 })

/-- MemWrite (20_memory.md R53): at or above BUF_CAP no effect. -/
def memWrite (i : Nat) (v : Byte) (s : State) : State :=
  if i < s.params.bufCap then { s with buf := bufInsert (unlistedByte s.bufInit i) s.buf i v } else s

/-- MemRead of `n` bytes from index `i` on, in order (44_dispatch.md R171). -/
def memReadList : Nat → Nat → State → List Byte × State
  | 0, _, s => ([], s)
  | n + 1, i, s =>
    let (b, s1) := memRead i s
    let (bs, s2) := memReadList n (i + 1) s1
    (b :: bs, s2)

/-- MemWrite of a byte list from index `i` on, in order (44_dispatch.md R171). -/
def memWriteList : List Byte → Nat → State → State
  | [], _, s => s
  | b :: bs, i, s => memWriteList bs (i + 1) (memWrite i b s)

/-! ### Ports and labels (00_scope.md R11, 10_state.md R40) -/

/-- `label(r)` (R11). -/
def label (r : Label) (s : State) : State := { s with out := { s.out with labels := s.out.labels ++ [r] } }

/-- `discard(r)` (60_exceptions.md R201): back to Idle, record the label, nothing else. -/
def discard (r : Label) (s : State) : State := label r { s with rxState := .idle }

/-- `emit(b)` (R11): one byte on the line. -/
def emit (b : Byte) (s : State) : State := { s with out := { s.out with wire := some b } }

/-- `persist(b)` (R11): strobe the store, which then presents `b` (log 10, DEDUCED). -/
def persist (b : Byte) (s : State) : State := { s with out := { s.out with store := some b }, storeRdata := b }

/-- The strobe of `call H(p)` (R11, 10_state.md R40). -/
def strobeHandler (p : List Byte) (s : State) : State := { s with out := { s.out with hcall := some p } }

/-- Hand a primitive's value to its caller (log 12). -/
def returnValue (r : PrimResult) (s : State) : State := { s with out := { s.out with result := some r } }

/-! ### The codec steps (40_codec.md) -/

/-- ENCODE (R100): one wire byte, and whether the logical byte is complete. -/
def encodeStep (v : Byte) (s : State) : Bool × State :=
  if s.txEsc then (true, { emit (v + SHIFT) s with txEsc := false })
  else if v ≤ MK_MAX then (false, { emit ESC s with txEsc := true })
  else (true, emit v s)

/-- DECODE (R101): the class of a wire byte; the escape flag is updated. -/
def decodeStep (b : Byte) (s : State) : RxClass × State :=
  ((decodeByte s.rxEsc b).1, { s with rxEsc := (decodeByte s.rxEsc b).2 })

/-- TxByte (43_tx.md R153): transmit one logical byte, summing it on the tick that completes it. -/
def txByte (v : Byte) (addSum : Bool) (s : State) : Bool × State :=
  let (done, t) := encodeStep v s
  (done, if done && addSum then csumAdd .tx v t else t)

/-- prime (43_tx.md R151): start a reply, whatever the transmitter was doing. -/
def prime (m : Byte) (n : Byte) (s : State) : State :=
  { csumInit .tx { s with txMark := m, txLen := n, txIdx := 0 } with txEsc := false, txState := .sendStart }

/-! ### Taking an event -/

/-- What of the state decides which row an event word is (30_encoding.md R72, 43_tx.md R150). -/
def State.ctx (s : State) : Ctx :=
  { rxEsc := s.rxEsc, rxState := s.rxState, isGrp := s.isGrp, txState := s.txState,
    txMore := decide (s.txIdx < s.txLen) }

/-- Take event word `w` off the port: the output record of the step starts empty (10_state.md R41; log 11), and a
received byte goes through DECODE, which updates `rxEsc` (42_rx.md R120; log 14). -/
def arrive (w : EvWord) (rest : List EvWord) (s : State) : State :=
  let t := { s with events := rest, out := {} }
  if w.kind = KIND_RX then (decodeStep w.byte t).2 else t

/-- No event arrives: nothing changes but the output record, which is empty (70_reset_and_hazards.md R239; log 1). -/
def idleStep (s : State) : State := { s with out := {} }

end Sys2Proof.Machine
end

