-- ==== Sys2Proof/Machine/Operands.lean ====
section
/-! DEFINITION. How operations obtain and test their operands: the address tests (42_rx.md R128, R130), the reply's
address byte (43_tx.md R155), the handler's answer (00_scope.md R8), the sub-command and the ChangeAddress parameters (44_dispatch.md R173, R176). -/

namespace Sys2Proof.Machine

/-- The group comparison of 42_rx.md R130: mask, group address, device address. -/
def groupMatch (m g a : Byte) : Bool := (m &&& g) == (m &&& a)

/-- The address byte of a reply (43_tx.md R155). -/
def replyAddress (a : Byte) : Byte := a ||| REPLY_BIT

/-- A capacity as the byte that carries it (44_dispatch.md R175). Exact within R8's range (log 21). -/
def capByte (n : Nat) : Byte := BitVec.ofNat 8 n

/-- What payload byte 0 selects (44_dispatch.md R173). -/
def subCommand (p : Params) (c : Byte) : SubCommand :=
  if c = p.svcEcho then .echo
  else if c = p.svcDescribe then .describe
  else if c = p.svcChangeAddr then .changeAddr
  else .unknown

/-- The parameter bytes of ChangeAddress: newAddress, currentAddressEcho, xorCheckByte at 1..3 (44_dispatch.md R176). -/
def changeAddrOperands (s : State) : (Byte × Byte × Byte) × State :=
  let (n, s1) := memRead 1 s
  let (e, s2) := memRead 2 s1
  let (x, s3) := memRead 3 s2
  ((n, e, x), s3)

/-- The validation of ChangeAddress against the old address (44_dispatch.md R176). -/
def changeAddrValid (a n e x : Byte) : Bool := e == a && x == a ^^^ n

/-- A parameter byte of a ChangeAddress request, of its three (44_dispatch.md R176). -/
def caParamByte (q : CaParam) (n e x : Byte) : Byte :=
  match q with
  | .newAddress => n
  | .currentAddressEcho => e
  | .xorCheckByte => x

/-- The two confirmation bytes `CA_REPLY` (00_scope.md R8, 92_eei_decisions.md D19; log 5). -/
def caReplyBytes (p : Params) (n e x : Byte) : Byte × Byte :=
  match p.caReply with
  | .capacities => (capByte p.inCap, capByte p.outCap)
  | .bytes r0 r1 => (r0, r1)
  | .request r0 r1 => (caParamByte r0 n e x, caParamByte r1 n e x)
  | .table rows => (rows.lookup (n, e, x)).getD (Config.caReply n e x)

/-- What `H` answers to an input (00_scope.md R8): the listed answer, else exactly OUT_CAP free bytes (log 4). -/
def handlerAnswer (p : Params) (arg : List Byte) : Option (List Byte) :=
  match p.handler.lookup arg with
  | some r => r
  | none => some ((List.range p.outCap).map (Config.handlerByte arg))

end Sys2Proof.Machine
end

