-- ==== Sys2Proof/Machine/Checksum.lean ====
section
/-! DEFINITION. The checksum primitives as instructions (41_checksum.md), each on the accumulator its caller names. -/

namespace Sys2Proof.Machine

/-- CSUM_INIT (R110). -/
def execCsumInit (acc : Accum) (s : State) : Result := .next (csumInit acc s)

/-- CSUM_ADD (R111). -/
def execCsumAdd (acc : Accum) (v : Byte) (s : State) : Result := .next (csumAdd acc v s)

/-- CSUM_FINAL (R112): returns the checksum byte; the accumulator keeps its value. -/
def execCsumFinal (acc : Accum) (s : State) : Result := .next (returnValue (.value (csumFinal acc s)) s)

/-- CSUM_CHECK (R113): adds the byte and returns whether the sum is zero. -/
def execCsumCheck (acc : Accum) (c : Byte) (s : State) : Result :=
  let (ok, t) := csumCheck acc c s
  .next (returnValue (.accepted ok) t)

end Sys2Proof.Machine
end

