-- ==== Sys2Proof/Machine/Codec.lean ====
section
/-! DEFINITION. The codec primitives as instructions (40_codec.md). -/

namespace Sys2Proof.Machine

/-- ENCODE (R100): emits one wire byte and returns `done`. -/
def execEncode (v : Byte) (s : State) : Result :=
  let (done, t) := encodeStep v s
  .next (returnValue (.done done) t)

/-- DECODE (R101): updates `rxEsc` and returns the class with its value. -/
def execDecode (b : Byte) (s : State) : Result :=
  let (c, t) := decodeStep b s
  .next (returnValue (.decoded c) t)

end Sys2Proof.Machine
end

