-- ==== Sys2Proof/Machine/Handler.lean ====
section
/-! DEFINITION. The command handler's dispatch (44_dispatch.md section 1). -/

namespace Sys2Proof.Machine

/-- `call H(p)` and the capture of its reply, shared by R171 and R172: read `buf[0..IN_CAP-1]`, call, write
`buf[0..OUT_CAP-1]`. A handler outside its contract has no step (R178). -/
def callHandler (s : State) : Result :=
  let (p, t) := memReadList s.params.inCap 0 s
  match handlerAnswer s.params p with
  | none => .fault .handlerBlocks
  | some r =>
    if r.length = s.params.outCap then .next (memWriteList r 0 (strobeHandler p t)) else .fault .handlerReplyLength

/-- The operation of R171: call, label, prime a reply of OUT_CAP bytes with the regular marker. -/
def acceptCommand (s : State) : Result :=
  onNext (callHandler s) fun t => prime MK_REG (capByte s.params.outCap) (label .acceptCmd t)

/-- The operation of R172: call and label; no reply. -/
def acceptGroup (s : State) : Result := onNext (callHandler s) (label .acceptGrp)

/-- DISPATCH_CMD (R171). The checksum byte `c` was summed by RX_CSUM already and is not read again (log 13). -/
def execDispatchCmd (_c : Byte) (s : State) : Result := acceptCommand s

/-- DISPATCH_GRP (R172). `c` as for DISPATCH_CMD. -/
def execDispatchGrp (_c : Byte) (s : State) : Result := acceptGroup s

end Sys2Proof.Machine
end

