-- ==== Sys2Proof/Machine/Service.lean ====
section
/-! DEFINITION. The service sub-protocol and the selection of a dispatch (44_dispatch.md section 2, R170). -/

namespace Sys2Proof.Machine

/-- The operation of R174: reply with the request payload, as long as the request's. -/
def echo (s : State) : State := prime MK_SVC s.rxLen (label .acceptEcho s)

/-- The operation of R175: the two capacities at indices 0 and 1, a reply of length 2. -/
def describe (s : State) : State :=
  prime MK_SVC 2 (label .acceptDescribe
    (memWrite 1 (capByte s.params.outCap) (memWrite 0 (capByte s.params.inCap) s)))

/-- The operation of R176: validate against the old address, then change, persist and confirm. -/
def changeAddress (s : State) : State :=
  let ((n, e, x), t) := changeAddrOperands s
  if changeAddrValid t.addr n e x then
    let u := persist n { t with addr := n }
    let (r0, r1) := caReplyBytes t.params n e x
    prime MK_SVC 2 (label .acceptChangeAddr (memWrite 1 r1 (memWrite 0 r0 u)))
  else label .svcRejected t

/-- The operation of R177: no reply and no state change. -/
def unknownSubCommand (s : State) : State := label .svcUnknown s

/-- ServiceDispatch (R173): select by payload byte 0. -/
def serviceDispatch (s : State) : State :=
  let (c, t) := memRead 0 s
  match subCommand t.params c with
  | .echo => echo t
  | .describe => describe t
  | .changeAddr => changeAddress t
  | .unknown => unknownSubCommand t

/-- Dispatch (R170). -/
def dispatch (s : State) : Result :=
  if s.isSvc then .next (serviceDispatch s)
  else if s.isGrp then acceptGroup s
  else acceptCommand s

/-- SVC_ECHO (R174). The checksum byte `c` is not read again (log 13). -/
def execSvcEcho (_c : Byte) (s : State) : Result := .next (echo s)

/-- SVC_DESCRIBE (R175). -/
def execSvcDescribe (_c : Byte) (s : State) : Result := .next (describe s)

/-- SVC_CHANGE_ADDR (R176). -/
def execSvcChangeAddr (_c : Byte) (s : State) : Result := .next (changeAddress s)

/-- SVC_UNKNOWN (R177). -/
def execSvcUnknown (_c : Byte) (s : State) : Result := .next (unknownSubCommand s)

end Sys2Proof.Machine
end

