-- ==== Sys2Proof/Machine/Receive.lean ====
section
/-! DEFINITION. The receive event classes (42_rx.md). Their operand `v` is the decoded value; DECODE has already
updated `rxEsc` when the event was taken (R120; log 14). -/

namespace Sys2Proof.Machine

/-- RxMarker (R121): a start marker in any state. -/
def rxMarker (m : Marker) (s : State) : State :=
  let t := if s.rxState = .idle then s else label .resync s
  { setFrameKind m (csumInit .rx t) with rxState := .waitAddress }

/-- RX_ESC (R125). -/
def execRxEsc (s : State) : Result := .next { s with rxEsc := true }

/-- RX_MARK_SVC (R122). -/
def execRxMarkSvc (s : State) : Result := .next (rxMarker .svc s)

/-- RX_MARK_REG (R123). -/
def execRxMarkReg (s : State) : Result := .next (rxMarker .reg s)

/-- RX_MARK_GRP (R124). -/
def execRxMarkGrp (s : State) : Result := .next (rxMarker .grp s)

/-- RX_IDLE_DATA (R126): ignored, and not stored; for 70_reset_and_hazards.md R231 see log 25 (DEDUCED). -/
def execRxIdleData (_v : Byte) (s : State) : Result := .next s

/-- RX_ADDR_REPLY (R127): a reply heard on the line. -/
def execRxAddrReply (_v : Byte) (s : State) : Result := .next (discard .replyOverheard s)

/-- RX_ADDR_UNI (R128): exact match against the device address. -/
def execRxAddrUni (v : Byte) (s : State) : Result :=
  if v = s.addr then .next { csumAdd .rx v s with rxState := .waitLength }
  else .next (discard .addrMismatch s)

/-- RX_ADDR_GRP (R129): hold the group address until the mask arrives. -/
def execRxAddrGrp (v : Byte) (s : State) : Result :=
  .next { csumAdd .rx v { s with grpAddr := v } with rxState := .waitGroupMask }

/-- RX_GMASK (R130): the group comparison under mask `v`. -/
def execRxGmask (v : Byte) (s : State) : Result :=
  let t := csumAdd .rx v s
  if groupMatch v t.grpAddr t.addr then .next { t with rxState := .waitLength }
  else .next (discard .groupMismatch t)

/-- RX_LEN (R131): any length 0..255; 0 goes straight to the checksum. -/
def execRxLen (v : Byte) (s : State) : Result :=
  .next { csumAdd .rx v s with
    rxLen := v, rxIdx := 0, rxState := if v = 0 then .waitChecksum else .waitData }

/-- RX_DATA (R132): sum, store if there is room, count. -/
def execRxData (v : Byte) (s : State) : Result :=
  let t := csumAdd .rx v s
  let u := if t.rxIdx.toNat < t.params.bufCap then memWrite t.rxIdx.toNat v t else label .overflowDrop t
  let idx := u.rxIdx + 1
  .next { u with rxIdx := idx, rxState := if idx = u.rxLen then .waitChecksum else u.rxState }

/-- RX_CSUM (R133): back to Idle whatever the outcome; dispatch if the sum is zero. -/
def execRxCsum (v : Byte) (s : State) : Result :=
  let (ok, t) := csumCheck .rx v s
  let u := { t with rxState := .idle }
  if ok then dispatch u else .next (label .checksumFail u)

end Sys2Proof.Machine
end

