-- ==== Sys2Proof/Machine/Reset.lean ====
section
/-! DEFINITION. The Reset event (70_reset_and_hazards.md R220). -/

namespace Sys2Proof.Machine

/-- RESET (R220): the address from the store, the buffer a new draw, both machines Idle, flags and sums 0; the
registers R39 leaves unspecified take free values (log 9). The parameters, the store and the pending events are the
environment's and stay (R223; log 24). -/
def execReset (s : State) : Result :=
  .next { s with
    addr := s.storeRdata
    rxState := .idle
    rxEsc := false
    isSvc := false
    isGrp := false
    rxSum := 0
    grpAddr := Config.unspecified s.draws .grpAddr
    rxLen := Config.unspecified s.draws .rxLen
    rxIdx := Config.unspecified s.draws .rxIdx
    buf := []
    txState := .idle
    txEsc := false
    txSum := 0
    txLen := Config.unspecified s.draws .txLen
    txIdx := Config.unspecified s.draws .txIdx
    txMark := Config.unspecified s.draws .txMark
    bufInit := drawBuffer s.params.bufCap s.draws
    draws := s.draws + 1 }

end Sys2Proof.Machine
end

