-- ==== Sys2Proof/Machine/Transmit.lean ====
section
/-! DEFINITION. The transmit tick classes (43_tx.md). -/

namespace Sys2Proof.Machine

/-- TX_IDLE (R152): nothing. -/
def execTxIdle (s : State) : Result := .next s

/-- TX_START (R154): the raw start marker, neither escaped nor summed. -/
def execTxStart (s : State) : Result := .next { emit s.txMark s with txState := .sendAddress }

/-- TX_ADDR (R155): the address as it is at this tick, with the reply bit. -/
def execTxAddr (s : State) : Result :=
  let (done, t) := txByte (replyAddress s.addr) true s
  .next (if done then { t with txState := .sendLength } else t)

/-- TX_LEN (R156). -/
def execTxLen (s : State) : Result :=
  let (done, t) := txByte s.txLen true s
  .next (if done then { t with txState := .sendData } else t)

/-- TX_DATA (R157): the buffer is read at every tick, both halves of an escape pair included. -/
def execTxData (s : State) : Result :=
  let (v, r) := memRead s.txIdx.toNat s
  let (done, t) := txByte v true r
  .next (if done then { t with txIdx := t.txIdx + 1 } else t)

/-- TX_CSUM (R158): the checksum byte, not summed; then Idle. -/
def execTxCsum (s : State) : Result :=
  let (done, t) := txByte (csumFinal .tx s) false s
  .next (if done then { t with txState := .idle } else t)

end Sys2Proof.Machine
end

