-- ==== Sys2Proof/Machine/Dispatch.lean ====
section
/-! DEFINITION. One arm per row of spec/opcode_table.json. -/

namespace Sys2Proof.Machine

def exec (i : Instr) (s : State) : Host.Outcome State Fault Refusal :=
  match i with
  | .reset => Sys2Proof.Machine.execReset s
  | .rxEsc => Sys2Proof.Machine.execRxEsc s
  | .rxMarkSvc => Sys2Proof.Machine.execRxMarkSvc s
  | .rxMarkReg => Sys2Proof.Machine.execRxMarkReg s
  | .rxMarkGrp => Sys2Proof.Machine.execRxMarkGrp s
  | .rxIdleData v => Sys2Proof.Machine.execRxIdleData v s
  | .rxAddrReply v => Sys2Proof.Machine.execRxAddrReply v s
  | .rxAddrUni v => Sys2Proof.Machine.execRxAddrUni v s
  | .rxAddrGrp v => Sys2Proof.Machine.execRxAddrGrp v s
  | .rxGmask v => Sys2Proof.Machine.execRxGmask v s
  | .rxLen v => Sys2Proof.Machine.execRxLen v s
  | .rxData v => Sys2Proof.Machine.execRxData v s
  | .rxCsum v => Sys2Proof.Machine.execRxCsum v s
  | .txIdle => Sys2Proof.Machine.execTxIdle s
  | .txStart => Sys2Proof.Machine.execTxStart s
  | .txAddr => Sys2Proof.Machine.execTxAddr s
  | .txLen => Sys2Proof.Machine.execTxLen s
  | .txData => Sys2Proof.Machine.execTxData s
  | .txCsum => Sys2Proof.Machine.execTxCsum s
  | .dispatchCmd c => Sys2Proof.Machine.execDispatchCmd c s
  | .dispatchGrp c => Sys2Proof.Machine.execDispatchGrp c s
  | .svcEcho c => Sys2Proof.Machine.execSvcEcho c s
  | .svcDescribe c => Sys2Proof.Machine.execSvcDescribe c s
  | .svcChangeAddr c => Sys2Proof.Machine.execSvcChangeAddr c s
  | .svcUnknown c => Sys2Proof.Machine.execSvcUnknown c s
  | .encode v => Sys2Proof.Machine.execEncode v s
  | .decode b => Sys2Proof.Machine.execDecode b s
  | .csumInit acc => Sys2Proof.Machine.execCsumInit acc s
  | .csumAdd acc v => Sys2Proof.Machine.execCsumAdd acc v s
  | .csumFinal acc => Sys2Proof.Machine.execCsumFinal acc s
  | .csumCheck acc c => Sys2Proof.Machine.execCsumCheck acc c s

end Sys2Proof.Machine
end

