-- ==== Sys2Proof/Machine/Step.lean ====
section
/-! DEFINITION. One step: take the next event word, decode it in the state's context, run it (00_scope.md R12,
20_memory.md R59). -/

namespace Sys2Proof.Machine

/-- One step of the engine. With no event pending nothing happens (70_reset_and_hazards.md R239; log 1). A word the
decoder rejects is refused (30_encoding.md R71). -/
def step (s : State) : Host.Outcome State Fault Refusal :=
  match s.events with
  | [] => .next (idleStep s)
  | w :: rest =>
    match decode (.ev s.ctx) w with
    | .ok i => exec i (arrive w rest s)
    | .error e => .refused (.rejectedWord e)

/-- The state with this event word next on the port. Which row it is depends on the state (log 2). -/
def State.withFetchWord (s : State) (nbits w : Nat) : State :=
  { s with events := tableWord nbits w :: s.events }

end Sys2Proof.Machine
end

