-- ==== Sys2Proof/Safety.lean ====
section
/-! DEFINITION. The terms claims are stated in: the register groups of 10_state.md R37, what it is to leave the buffer
and the environment alone, the invariant of R38, the bytes a run puts on the line, and when a request is addressed to a
device (42_rx.md R134). -/

namespace Sys2Proof.Machine

/-- The receive-side registers (10_state.md section 3). -/
structure RxRegs where
  rxState : RxState
  rxEsc : Bool
  isSvc : Bool
  isGrp : Bool
  rxSum : Byte
  grpAddr : Byte
  rxLen : Byte
  rxIdx : Byte
deriving DecidableEq, Repr

/-- The transmit-side registers (10_state.md section 5). -/
structure TxRegs where
  txState : TxState
  txEsc : Bool
  txSum : Byte
  txLen : Byte
  txIdx : Byte
  txMark : Byte
deriving DecidableEq, Repr

/-- The receive-side registers of a state. -/
def State.rxRegs (s : State) : RxRegs :=
  { rxState := s.rxState, rxEsc := s.rxEsc, isSvc := s.isSvc, isGrp := s.isGrp, rxSum := s.rxSum,
    grpAddr := s.grpAddr, rxLen := s.rxLen, rxIdx := s.rxIdx }

/-- The transmit-side registers of a state. -/
def State.txRegs (s : State) : TxRegs :=
  { txState := s.txState, txEsc := s.txEsc, txSum := s.txSum, txLen := s.txLen, txIdx := s.txIdx, txMark := s.txMark }

/-- The transmit-side registers that `prime(m, n)` leaves (43_tx.md R151). -/
def primedRegs (m n : Byte) : TxRegs :=
  { txState := .sendStart, txEsc := false, txSum := 0, txLen := n, txIdx := 0, txMark := m }

/-- Every byte of the buffer reads in `t` as in `s`. -/
def SameBuffer (s t : State) : Prop := ∀ i, t.bufByte i = s.bufByte i

/-- What a rule leaves alone unless it names it: pending events, the store's byte, the parameters, the reset draw. -/
def SameEnv (s t : State) : Prop :=
  t.events = s.events ∧ t.storeRdata = s.storeRdata ∧ t.params = s.params ∧ t.bufInit = s.bufInit

/-- From `s` to `t` the receive registers become `r` and the outputs `o`, and nothing else changes. -/
def RxEffect (s t : State) (r : RxRegs) (o : Output) : Prop :=
  t.rxRegs = r ∧ t.out = o ∧ t.txRegs = s.txRegs ∧ t.addr = s.addr ∧ SameBuffer s t ∧ SameEnv s t

/-- From `s` to `t` the transmit registers become `x` and the outputs `o`, and nothing else changes. -/
def TxEffect (s t : State) (x : TxRegs) (o : Output) : Prop :=
  t.txRegs = x ∧ t.out = o ∧ t.rxRegs = s.rxRegs ∧ t.addr = s.addr ∧ SameBuffer s t ∧ SameEnv s t

/-- A tick that sends logical byte `v` (43_tx.md R153, 40_codec.md R100): the registers become `x` when the byte is
complete; the first half of an escape pair only sets `txEsc`. -/
def SendsByte (s t : State) (v : Byte) (x : TxRegs) : Prop :=
  (s.txEsc = false ∧ MK_MAX < v → TxEffect s t x { s.out with wire := some v }) ∧
  (s.txEsc = false ∧ v ≤ MK_MAX →
    TxEffect s t { s.txRegs with txEsc := true } { s.out with wire := some ESC }) ∧
  (s.txEsc = true → TxEffect s t x { s.out with wire := some (v + SHIFT) })

/-- Row `j` applies to event word `w` in context `c` (30_encoding.md R79): the table's condition column holds, and `w` is
`j`'s word in every bit that `j` does not ignore. -/
def Applies (c : Ctx) (w : EvWord) (j : Instr) : Prop :=
  j.wf = true ∧ (Site.ev c).admits j = true ∧ (encode c.rxEsc j).kind = w.kind ∧
    (w.kind = KIND_RX → (encode c.rxEsc j).byte = w.byte)

/-- The encoding of a receive class (42_rx.md): in every context where `p` holds, the event word of a wire byte that
decodes to data `v` is read as `i`. -/
def ReadsData (p : Ctx → Prop) (v : Byte) (i : Instr) : Prop :=
  ∀ c b, p c → (decodeByte c.rxEsc b).1 = .data v → decode (.ev c) (rxWord b) = .ok i

/-- The encoding of a tick class (43_tx.md): in every context where `p` holds, every tick word is read as `i`. -/
def ReadsTick (p : Ctx → Prop) (i : Instr) : Prop :=
  ∀ c w, p c → w.kind = KIND_TICK → decode (.ev c) w = .ok i

/-- One label more than before; the other outputs as before. -/
def Output.withLabel (o : Output) (r : Label) : Output := { o with labels := o.labels ++ [r] }

/-- The invariant of 10_state.md R38 with the clauses that make it inductive: an unstarted reply has sent no payload
byte, the buffer is canonical, the parameters are within 00_scope.md R8. -/
structure EngineInv (s : State) : Prop where
  kinds : ¬(s.isSvc = true ∧ s.isGrp = true)
  rxCount : s.rxState = .waitData → s.rxIdx < s.rxLen ∧ 1 ≤ s.rxLen.toNat
  groupMask : s.rxState = .waitGroupMask → s.isGrp = true
  unstarted : s.txState = .sendStart ∨ s.txState = .sendAddress ∨ s.txState = .sendLength → s.txIdx = 0
  txCount : s.txState = .sendData → s.txIdx ≤ s.txLen
  escPlace : s.txEsc = true → s.txState = .sendLength ∨ s.txState = .sendData
  marker : s.txState ≠ .idle → s.txMark = MK_SVC ∨ s.txMark = MK_REG
  canonical : Memory.wf s = true
  drawn : s.bufInit.length = s.params.bufCap
  legal : s.params.wf = true

/-- The handler answers every input with OUT_CAP bytes (44_dispatch.md R178). -/
def HandlerKeepsContract (p : Params) : Prop :=
  ∀ arg, ∃ r, handlerAnswer p arg = some r ∧ r.length = p.outCap

/-- What the handler is called with: `buf[0..IN_CAP-1]` (44_dispatch.md R171). -/
def handlerInput (s : State) : List Byte := (List.range s.params.inCap).map s.bufByte

/-- The bytes `k` steps put on the line, in order (10_state.md R41). A stopped run puts no more. -/
def lineBytes : Nat → State → List Byte
  | 0, _ => []
  | k + 1, s =>
    match step s with
    | .next t => t.out.wire.toList ++ lineBytes k t
    | _ => []

/-- The output records of `k` steps, in order (10_state.md R41). A stopped run has no more. -/
def runOutputs : Nat → State → List Output
  | 0, _ => []
  | k + 1, s =>
    match step s with
    | .next t => t.out :: runOutputs k t
    | _ => []

/-- No output record of `k` steps has a handler call, a persisted byte or a wire byte: the ports of 10_state.md R40 stay
still. -/
def QuietRun (k : Nat) (s : State) : Prop :=
  ∀ o ∈ runOutputs k s, o.hcall = none ∧ o.store = none ∧ o.wire = none

/-- The wire length of a logical frame with these fields after its marker (30_encoding.md R75). -/
def wireLength (fields : List Byte) : Nat := 1 + fields.length + fields.countP (fun x => x ≤ MK_MAX)

/-- The classes the receive codec gives a list of wire bytes, and the escape flag after them (40_codec.md R101). -/
def decodeBytes : Bool → List Byte → List RxClass × Bool
  | e, [] => ([], e)
  | e, b :: bs => ((decodeByte e b).1 :: (decodeBytes (decodeByte e b).2 bs).1, (decodeBytes (decodeByte e b).2 bs).2)

/-- A request is addressed to the device with address `a` (42_rx.md R134): bit 7 of its address byte is clear and it
matches exactly, or on the bits its mask selects. -/
def addressedTo (r : Request) (a : Byte) : Bool :=
  match r with
  | .svc t _ => !t.msb && t == a
  | .reg t _ => !t.msb && t == a
  | .grp g m _ => !g.msb && (m &&& g) == (m &&& a)

/-- Where a parameter byte of ChangeAddress stands in the payload (30_encoding.md R78, 44_dispatch.md R176). -/
def caParamIndex : CaParam → Nat
  | .newAddress => 1
  | .currentAddressEcho => 2
  | .xorCheckByte => 3

/-- A ChangeAddress request that validates stands in the buffer (44_dispatch.md R173, R176): the sub-command's code at 0,
the current address at 2, the xor of the current and the new address at 3. -/
def holdsChangeAddress (s : State) : Bool :=
  s.bufByte 0 == s.params.svcChangeAddr && s.bufByte 2 == s.addr && s.bufByte 3 == s.addr ^^^ s.bufByte 1

/-- Whether a frame that passes causes a reply (44_dispatch.md R179), read off the state at its checksum byte. -/
def replies (s : State) : Bool :=
  if s.isSvc then
    s.bufByte 0 == s.params.svcEcho || s.bufByte 0 == s.params.svcDescribe || holdsChangeAddress s
  else !s.isGrp

/-- The length of that reply (44_dispatch.md R171, R174 to R176). -/
def replyLength (s : State) : Byte :=
  if s.isSvc then if s.bufByte 0 = s.params.svcEcho then s.rxLen else 2
  else capByte s.params.outCap

end Sys2Proof.Machine
end

