-- ==== Sys2Proof/Certificates/Slice0/Obligations.lean ====
section
/-! DEFINITION. The statements for the provers. Each docstring names the rule of spec/ it formalises, or the model's
choice it rests on. -/

open Sys2Proof Sys2Proof.Machine

/-! ### Encoding -/

/-- Encoding a row's operands and decoding the word at a site the table gives the row returns the row. -/
def Obligations.DecodeOfEncodeIsSelf : Prop :=
  ∀ (site : Site) (i : Instr), i.wf = true → site.admits i = true →
    decode site (encode site.rxEsc i) = .ok i

/-- R79: for every event word that is not of kind 11 and every context exactly one row of the table applies: the
decoder's. -/
def Obligations.EveryEventWordIsExactlyOneRow : Prop :=
  ∀ (c : Ctx) (w : EvWord), w.kind ≠ 0b11 →
    ∃ i, decode (.ev c) w = .ok i ∧ Applies c w i ∧ ∀ j, Applies c w j → j = i

/-- R71: an event word of kind 11 is refused, in the decoder and in a step, from every state. -/
def Obligations.ReservedKindIsRefused : Prop :=
  ∀ (s : State) (w : EvWord) (rest : List EvWord), w.kind = 0b11 → s.events = w :: rest →
    (∀ c, decode (.ev c) w = .error (.reservedKind w)) ∧ step s = .refused (.rejectedWord (.reservedKind w))

/-- Words written out from 30_encoding.md R70 and R72 decode to the rows they stand for. -/
def Obligations.SampleWordsDecode : Prop :=
  decode (.ev resetCtx) 0b1000000000 = .ok .reset ∧
  decode (.ev resetCtx) 0b0000000000 = .ok .rxEsc ∧
  decode (.ev resetCtx) 0b0000000011 = .ok .rxMarkGrp ∧
  decode (.ev { resetCtx with rxState := .waitLength, rxEsc := true }) 0b0000000101 = .ok (.rxLen 1) ∧
  decode (.ev { resetCtx with rxState := .waitAddress }) 0b0011000000 = .ok (.rxAddrReply 0xC0) ∧
  decode (.ev { resetCtx with txState := .sendData, txMore := true }) 0b0100000000 = .ok .txData ∧
  decode (.dispatch true false .echo) 0b0011001001 = .ok (.svcEcho 0xC9) ∧
  decode (.component (.csumAdd .tx)) 0b0000100000 = .ok (.csumAdd .tx 0x20)

/-- R103 for any run of logical bytes: what `enc` puts on the wire decodes, from `rxEsc = 0`, to exactly those data
bytes in order, with no marker, and ends with `rxEsc = 0`. A byte goes out as itself at or above 0x04, or as the prefix and a
byte in 0x04..0x07. -/
def Obligations.WireFormDecodesToItself : Prop :=
  (∀ x : Byte, enc x = [x] ∧ 4 ≤ x ∨ enc x = [0, x + 4] ∧ 4 ≤ x + 4 ∧ x + 4 ≤ 7) ∧
  ∀ xs : List Byte,
    (decodeBytes false (xs.flatMap enc)).2 = false ∧
    (decodeBytes false (xs.flatMap enc)).1.filter (fun c => c ≠ .esc) = xs.map .data

/-- R80: after an unescaped prefix every byte, a marker value or a second prefix too, is data. -/
def Obligations.ByteAfterPrefixIsData : Prop :=
  ∀ (c : Ctx) (b : Byte), c.rxEsc = true →
    decode (.ev c) (rxWord b) = .ok (classifyData c (b - 4)) ∧ decodeByte true b = (.data (b - 4), false)

/-! ### Reset and the invariant -/

/-- R39: the values the spec gives the registers after reset. `Config.storeInit` is STORE_INIT (log 23). The
buffer is the draw numbered 0. -/
def Obligations.ResetStateHoldsTheSpecsValues : Prop :=
  State.reset.addr = Config.storeInit ∧ State.reset.rxState = .idle ∧ State.reset.rxEsc = false ∧
  State.reset.isSvc = false ∧ State.reset.isGrp = false ∧ State.reset.rxSum = 0 ∧
  State.reset.txState = .idle ∧ State.reset.txEsc = false ∧ State.reset.txSum = 0 ∧
  ∀ i, i < State.reset.params.bufCap → State.reset.bufByte i = Config.bufInit 0 i

/-- R220: the Reset event; nothing is emitted, persisted or called, and the registers R39 leaves unspecified are not
spoken of. The model's: that the buffer is the draw numbered `draws` and its form canonical (log 6, DESIGN CHOICE), and
that the pending events, the store's byte, the parameters and the output record stay (log 24, DEDUCED). -/
def Obligations.ResetEventReinitialises : Prop :=
  (∀ c w, w.kind = KIND_RESET → decode (.ev c) w = .ok .reset) ∧
  ∀ s : State, ∃ t, exec .reset s = .next t ∧
    t.addr = s.storeRdata ∧ t.rxState = .idle ∧ t.rxEsc = false ∧ t.isSvc = false ∧ t.isGrp = false ∧ t.rxSum = 0 ∧
    t.txState = .idle ∧ t.txEsc = false ∧ t.txSum = 0 ∧
    (∀ i, i < s.params.bufCap → t.bufByte i = Config.bufInit s.draws i) ∧ Memory.wf t = true ∧
    t.out = s.out ∧ t.events = s.events ∧ t.storeRdata = s.storeRdata ∧ t.params = s.params

/-- The model's choice (log 10): the store presents the byte last persisted, so an accepted ChangeAddress outlives a
reset (70_reset_and_hazards.md R239). -/
def Obligations.PersistedAddressOutlivesReset : Prop :=
  ∀ (s t u : State) (c : Byte), s.params.wf = true →
    s.bufByte 2 = s.addr → s.bufByte 3 = s.addr ^^^ s.bufByte 1 →
    exec (.svcChangeAddr c) s = .next t → exec .reset t = .next u → u.addr = s.bufByte 1

/-- The invariant holds right after reset. -/
def Obligations.ResetStateHasInvariant : Prop := EngineInv State.reset

/-- R38: every step keeps the invariant, from every state that has it and for every event. -/
def Obligations.EveryStepKeepsInvariant : Prop :=
  ∀ s t : State, EngineInv s → step s = .next t → EngineInv t

/-! ### Steps -/

/-- A step runs the instruction its event word decodes to, on the state that has taken the word off the port. The model's:
the port is a list and its first word is removed (log 1, DESIGN CHOICE), the output record of the step starts empty
(log 11, DESIGN CHOICE, of R41), and for a received byte `rxEsc` is as DECODE leaves it before the class runs (log 14,
DEDUCED from R120). -/
def Obligations.StepRunsTheDecodedInstruction : Prop :=
  ∀ (s : State) (w : EvWord) (rest : List EvWord) (i : Instr),
    s.events = w :: rest → decode (.ev s.ctx) w = .ok i →
    step s = exec i (arrive w rest s) ∧
    arrive w rest s = { s with
      events := rest, out := {},
      rxEsc := if w.kind = KIND_RX then decide (s.rxEsc = false ∧ w.byte = ESC) else s.rxEsc }

/-- The model's choice (log 1): a step with no event pending changes only the output record. -/
def Obligations.StepWithoutEventIsIdle : Prop :=
  ∀ s : State, s.events = [] → step s = .next { s with out := {} }

/-- R200: every event word of kind RxByte, Tick or Reset has a step from every state with parameters within R8. -/
def Obligations.EveryEventHasAStep : Prop :=
  ∀ (s : State) (w : EvWord) (rest : List EvWord), s.params.wf = true → s.events = w :: rest → w.kind ≠ 0b11 →
    ∃ t, step s = .next t ∧ t.events = rest ∧ t.params = s.params

/-- R40 and R204: which output can fire on which event, and at most one label a step. -/
def Obligations.OutputsFireOnTheirEvents : Prop :=
  ∀ s t : State, step s = .next t →
    (t.out.wire ≠ none → ∃ w rest, s.events = w :: rest ∧ w.kind = KIND_TICK) ∧
    (t.out.store ≠ none ∨ t.out.hcall ≠ none → ∃ w rest, s.events = w :: rest ∧ w.kind = KIND_RX) ∧
    t.out.labels.length ≤ 1

/-! ### Receive classes -/

/-- R125. -/
def Obligations.EscapePrefixSetsOnlyTheFlag : Prop :=
  (∀ c, c.rxEsc = false → decode (.ev c) 0b0000000000 = .ok .rxEsc) ∧
  ∀ s : State, ∃ t, exec .rxEsc s = .next t ∧ RxEffect s t { s.rxRegs with rxEsc := true } s.out

/-- R121 to R124: the three start markers, in any receive state. -/
def Obligations.MarkersStartAFrame : Prop :=
  (∀ c, c.rxEsc = false → decode (.ev c) 0b0000000001 = .ok .rxMarkSvc ∧
    decode (.ev c) 0b0000000010 = .ok .rxMarkReg ∧ decode (.ev c) 0b0000000011 = .ok .rxMarkGrp) ∧
  ∀ s : State,
    let o := if s.rxState = .idle then s.out else s.out.withLabel .resync
    (∃ t, exec .rxMarkSvc s = .next t ∧
      RxEffect s t { s.rxRegs with rxSum := 0, isSvc := true, isGrp := false, rxState := .waitAddress } o) ∧
    (∃ t, exec .rxMarkReg s = .next t ∧
      RxEffect s t { s.rxRegs with rxSum := 0, isSvc := false, isGrp := false, rxState := .waitAddress } o) ∧
    (∃ t, exec .rxMarkGrp s = .next t ∧
      RxEffect s t { s.rxRegs with rxSum := 0, isSvc := false, isGrp := true, rxState := .waitAddress } o)

/-- R126 and R152: a data byte outside a frame and a tick with no reply in progress change nothing and output
nothing. -/
def Obligations.IdleEventsChangeNothing : Prop :=
  ∀ (s : State) (v : Byte),
    ReadsData (fun c => c.rxState = .idle) v (.rxIdleData v) ∧ exec (.rxIdleData v) s = .next s ∧
    ReadsTick (fun c => c.txState = .idle) .txIdle ∧ exec .txIdle s = .next s

/-- R127: discarded with the label, nothing summed. -/
def Obligations.OverheardReplyIsDiscarded : Prop :=
  ∀ (s : State) (v : Byte),
    (v.msb = true → ReadsData (fun c => c.rxState = .waitAddress) v (.rxAddrReply v)) ∧
    ∃ t, exec (.rxAddrReply v) s = .next t ∧
    RxEffect s t { s.rxRegs with rxState := .idle } (s.out.withLabel .replyOverheard)

/-- R128: the exact match, and the discard otherwise. -/
def Obligations.UnicastAddressMustMatch : Prop :=
  ∀ (s : State) (v : Byte),
    (v.msb = false → ReadsData (fun c => c.rxState = .waitAddress ∧ c.isGrp = false) v (.rxAddrUni v)) ∧
    ∃ t, exec (.rxAddrUni v) s = .next t ∧
    (v = s.addr → RxEffect s t { s.rxRegs with rxSum := s.rxSum + v, rxState := .waitLength } s.out) ∧
    (v ≠ s.addr → RxEffect s t { s.rxRegs with rxState := .idle } (s.out.withLabel .addrMismatch))

/-- R129. -/
def Obligations.GroupAddressIsHeld : Prop :=
  ∀ (s : State) (v : Byte),
    (v.msb = false → ReadsData (fun c => c.rxState = .waitAddress ∧ c.isGrp = true) v (.rxAddrGrp v)) ∧
    ∃ t, exec (.rxAddrGrp v) s = .next t ∧
    RxEffect s t { s.rxRegs with grpAddr := v, rxSum := s.rxSum + v, rxState := .waitGroupMask } s.out

/-- R130: the mask is summed whether or not the group matches. -/
def Obligations.GroupMaskDecides : Prop :=
  ∀ (s : State) (v : Byte),
    ReadsData (fun c => c.rxState = .waitGroupMask) v (.rxGmask v) ∧
    ∃ t, exec (.rxGmask v) s = .next t ∧
    (v &&& s.grpAddr = v &&& s.addr →
      RxEffect s t { s.rxRegs with rxSum := s.rxSum + v, rxState := .waitLength } s.out) ∧
    (v &&& s.grpAddr ≠ v &&& s.addr →
      RxEffect s t { s.rxRegs with rxSum := s.rxSum + v, rxState := .idle } (s.out.withLabel .groupMismatch))

/-- R131: every length 0..255; 0 goes straight to the checksum. -/
def Obligations.LengthByteIsLatched : Prop :=
  ∀ (s : State) (v : Byte),
    ReadsData (fun c => c.rxState = .waitLength) v (.rxLen v) ∧
    ∃ t, exec (.rxLen v) s = .next t ∧
    RxEffect s t { s.rxRegs with
      rxSum := s.rxSum + v, rxLen := v, rxIdx := 0,
      rxState := if v = 0 then .waitChecksum else .waitData } s.out

/-- R132: summed and counted always; stored at `rxIdx` if there is room, else only labelled. -/
def Obligations.PayloadByteIsSummedCountedAndStored : Prop :=
  ∀ (s : State) (v : Byte), Memory.wf s = true →
    ReadsData (fun c => c.rxState = .waitData) v (.rxData v) ∧ ∃ t, exec (.rxData v) s = .next t ∧
    t.rxRegs = { s.rxRegs with
      rxSum := s.rxSum + v, rxIdx := s.rxIdx + 1,
      rxState := if s.rxIdx + 1 = s.rxLen then .waitChecksum else s.rxState } ∧
    t.txRegs = s.txRegs ∧ t.addr = s.addr ∧ SameEnv s t ∧
    (s.rxIdx.toNat < s.params.bufCap →
      t.out = s.out ∧ t.bufByte s.rxIdx.toNat = v ∧ ∀ i, i ≠ s.rxIdx.toNat → t.bufByte i = s.bufByte i) ∧
    (s.params.bufCap ≤ s.rxIdx.toNat → t.out = s.out.withLabel .overflowDrop ∧ SameBuffer s t)

/-- R133: a sum that is not zero discards the frame; a zero sum dispatches it. `rxState` is Idle before either, and Idle
afterwards whatever the outcome. -/
def Obligations.ChecksumByteEndsTheFrame : Prop :=
  ∀ (s : State) (v : Byte),
    ReadsData (fun c => c.rxState = .waitChecksum) v (.rxCsum v) ∧
    (s.rxSum + v ≠ 0 → ∃ t, exec (.rxCsum v) s = .next t ∧
      RxEffect s t { s.rxRegs with rxSum := s.rxSum + v, rxState := .idle } (s.out.withLabel .checksumFail)) ∧
    (s.rxSum + v = 0 → exec (.rxCsum v) s = dispatch { s with rxSum := 0, rxState := .idle }) ∧
    ∀ t, exec (.rxCsum v) s = .next t → t.rxState = .idle

/-- R170 and R173: after a right checksum byte the operation that the frame kind and, for a service frame, payload byte
0 select runs on the state with `rxState` Idle, and completes there. -/
def Obligations.RightChecksumRunsTheSelectedOperation : Prop :=
  ∀ (s : State) (v : Byte), s.params.wf = true → s.rxSum + v = 0 →
    let u := { s with rxSum := 0, rxState := .idle }
    (s.isSvc = false → s.isGrp = false → exec (.rxCsum v) s = exec (.dispatchCmd v) u) ∧
    (s.isSvc = false → s.isGrp = true → exec (.rxCsum v) s = exec (.dispatchGrp v) u) ∧
    (s.isSvc = true → s.bufByte 0 = s.params.svcEcho → exec (.rxCsum v) s = exec (.svcEcho v) u) ∧
    (s.isSvc = true → s.bufByte 0 = s.params.svcDescribe → exec (.rxCsum v) s = exec (.svcDescribe v) u) ∧
    (s.isSvc = true → s.bufByte 0 = s.params.svcChangeAddr → exec (.rxCsum v) s = exec (.svcChangeAddr v) u) ∧
    (s.isSvc = true → s.bufByte 0 ≠ s.params.svcEcho → s.bufByte 0 ≠ s.params.svcDescribe →
      s.bufByte 0 ≠ s.params.svcChangeAddr → exec (.rxCsum v) s = exec (.svcUnknown v) u) ∧
    exec (.rxCsum v) s = exec (selectDispatch s.isSvc s.isGrp (subCommand s.params (s.bufByte 0)) v) u ∧
    ∃ t, exec (.rxCsum v) s = .next t ∧ t.rxState = .idle ∧ t.rxSum = 0

/-! ### Transmit classes -/

/-- R154: the marker goes out raw and unsummed. -/
def Obligations.StartTickSendsTheMarker : Prop :=
  ReadsTick (fun c => c.txState = .sendStart) .txStart ∧
  ∀ s : State, ∃ t, exec .txStart s = .next t ∧
    TxEffect s t { s.txRegs with txState := .sendAddress } { s.out with wire := some s.txMark }

/-- R155: the address of this tick with the reply bit, always in one tick when no escape is pending. -/
def Obligations.AddressTickSendsTheReplyAddress : Prop :=
  ReadsTick (fun c => c.txState = .sendAddress) .txAddr ∧
  ∀ s : State, ∃ t, exec .txAddr s = .next t ∧
    SendsByte s t (s.addr ||| 0x80)
      { s.txRegs with txSum := s.txSum + (s.addr ||| 0x80), txState := .sendLength, txEsc := false } ∧
    MK_MAX < s.addr ||| 0x80

/-- R156. -/
def Obligations.LengthTickSendsTheLength : Prop :=
  ReadsTick (fun c => c.txState = .sendLength) .txLen ∧
  ∀ s : State, ∃ t, exec .txLen s = .next t ∧
    SendsByte s t s.txLen { s.txRegs with txSum := s.txSum + s.txLen, txState := .sendData, txEsc := false }

/-- R157: the buffer's byte at this tick; at or above BUF_CAP some byte. -/
def Obligations.DataTickSendsTheBufferByte : Prop :=
  ReadsTick (fun c => c.txState = .sendData ∧ c.txMore = true) .txData ∧
  ∀ s : State, ∃ t v, exec .txData s = .next t ∧
    (s.txIdx.toNat < s.params.bufCap → v = s.bufByte s.txIdx.toNat) ∧
    SendsByte s t v { s.txRegs with txSum := s.txSum + v, txIdx := s.txIdx + 1, txEsc := false }

/-- R158: the checksum is not summed, and completing it ends the reply. -/
def Obligations.ChecksumTickEndsTheReply : Prop :=
  ReadsTick (fun c => c.txState = .sendData ∧ c.txMore = false) .txCsum ∧
  ∀ s : State, ∃ t, exec .txCsum s = .next t ∧
    SendsByte s t (-s.txSum) { s.txRegs with txState := .idle, txEsc := false }

/-! ### Dispatch -/

/-- R171: the handler gets `buf[0..IN_CAP-1]`, its OUT_CAP bytes are stored, a reply of that length is primed. -/
def Obligations.CommandDispatchCallsStoresAndReplies : Prop :=
  ∀ (s : State) (c : Byte), Memory.wf s = true → s.params.wf = true →
    (∀ q, selectDispatch false false q c = .dispatchCmd c) ∧
    ∃ t r, exec (.dispatchCmd c) s = .next t ∧ handlerAnswer s.params (handlerInput s) = some r ∧
      r.length = s.params.outCap ∧ (∀ i, t.bufByte i = r.getD i (s.bufByte i)) ∧
      t.txRegs = primedRegs MK_REG (capByte s.params.outCap) ∧ t.rxRegs = s.rxRegs ∧ t.addr = s.addr ∧ SameEnv s t ∧
      t.out = { s.out.withLabel .acceptCmd with hcall := some (handlerInput s) }

/-- R172: as R171, but no reply: the transmit registers stay. -/
def Obligations.GroupDispatchCallsAndStoresOnly : Prop :=
  ∀ (s : State) (c : Byte), Memory.wf s = true → s.params.wf = true →
    (∀ q, selectDispatch false true q c = .dispatchGrp c) ∧
    ∃ t r, exec (.dispatchGrp c) s = .next t ∧ handlerAnswer s.params (handlerInput s) = some r ∧
      r.length = s.params.outCap ∧ (∀ i, t.bufByte i = r.getD i (s.bufByte i)) ∧
      t.txRegs = s.txRegs ∧ t.rxRegs = s.rxRegs ∧ t.addr = s.addr ∧ SameEnv s t ∧
      t.out = { s.out.withLabel .acceptGrp with hcall := some (handlerInput s) }

/-- R178: a handler that does not return, or answers with another length than OUT_CAP, has no step; every answer of
length OUT_CAP has one. -/
def Obligations.HandlerOutsideItsContractHasNoStep : Prop :=
  ∀ (s : State) (c : Byte), s.params.inCap ≤ s.params.bufCap →
    (handlerAnswer s.params (handlerInput s) = none →
      exec (.dispatchCmd c) s = .fault .handlerBlocks ∧ exec (.dispatchGrp c) s = .fault .handlerBlocks) ∧
    (∀ r, handlerAnswer s.params (handlerInput s) = some r → r.length ≠ s.params.outCap →
      exec (.dispatchCmd c) s = .fault .handlerReplyLength ∧ exec (.dispatchGrp c) s = .fault .handlerReplyLength) ∧
    (∀ r, handlerAnswer s.params (handlerInput s) = some r → r.length = s.params.outCap →
      (∃ t, exec (.dispatchCmd c) s = .next t) ∧ ∃ t, exec (.dispatchGrp c) s = .next t)

/-- The model's reading of R8 and R178: parameters within their ranges have a handler that keeps its contract. -/
def Obligations.LegalParametersKeepTheContract : Prop :=
  ∀ p : Params, p.wf = true → HandlerKeepsContract p

/-- R174: the request payload goes back as it stands, with the request's length. -/
def Obligations.EchoRepliesWithTheRequest : Prop :=
  ∀ (s : State) (c : Byte),
    (∀ g, selectDispatch true g (subCommand s.params s.params.svcEcho) c = .svcEcho c) ∧
    ∃ t, exec (.svcEcho c) s = .next t ∧
    TxEffect s t (primedRegs MK_SVC s.rxLen) (s.out.withLabel .acceptEcho)

/-- R175: the two capacities, in two bytes. -/
def Obligations.DescribeReportsTheCapacities : Prop :=
  ∀ (s : State) (c : Byte), Memory.wf s = true → s.params.wf = true →
    (∀ g, selectDispatch true g (subCommand s.params s.params.svcDescribe) c = .svcDescribe c) ∧
    ∃ t, exec (.svcDescribe c) s = .next t ∧
      (t.bufByte 0).toNat = s.params.inCap ∧ (t.bufByte 1).toNat = s.params.outCap ∧
      (∀ i, 2 ≤ i → t.bufByte i = s.bufByte i) ∧
      t.txRegs = primedRegs MK_SVC 2 ∧ t.rxRegs = s.rxRegs ∧ t.addr = s.addr ∧ SameEnv s t ∧
      t.out = s.out.withLabel .acceptDescribe

/-- R176: where the validation holds, the address changes, is persisted, and two confirmation bytes are primed; where it
fails, only the label. The confirmation is the parameter CA_REPLY (R8, D19): by default the two capacities, or as set two
fixed bytes, two of the request's parameter bytes, or what a table lists for the request. The model's: that these are the
forms CA_REPLY may take (log 5, DESIGN CHOICE). What the store presents afterwards is its choice too (log 10) and not spoken of. -/
def Obligations.ChangeAddressValidatesThenChanges : Prop :=
  ∀ (s : State) (c : Byte), Memory.wf s = true → s.params.wf = true →
    (∀ g, selectDispatch true g (subCommand s.params s.params.svcChangeAddr) c = .svcChangeAddr c) ∧
    (s.bufByte 2 = s.addr ∧ s.bufByte 3 = s.addr ^^^ s.bufByte 1 →
      ∃ t, exec (.svcChangeAddr c) s = .next t ∧ t.addr = s.bufByte 1 ∧
        t.out = { s.out.withLabel .acceptChangeAddr with store := some (s.bufByte 1) } ∧
        (t.bufByte 0, t.bufByte 1) = caReplyBytes s.params (s.bufByte 1) (s.bufByte 2) (s.bufByte 3) ∧
        (s.params.caReply = .capacities →
          (t.bufByte 0).toNat = s.params.inCap ∧ (t.bufByte 1).toNat = s.params.outCap) ∧
        (∀ r0 r1, s.params.caReply = .bytes r0 r1 → t.bufByte 0 = r0 ∧ t.bufByte 1 = r1) ∧
        (∀ q0 q1, s.params.caReply = .request q0 q1 →
          t.bufByte 0 = s.bufByte (caParamIndex q0) ∧ t.bufByte 1 = s.bufByte (caParamIndex q1)) ∧
        (∀ rows r, s.params.caReply = .table rows →
          rows.lookup (s.bufByte 1, s.bufByte 2, s.bufByte 3) = some r → (t.bufByte 0, t.bufByte 1) = r) ∧
        (∀ i, 2 ≤ i → t.bufByte i = s.bufByte i) ∧
        t.txRegs = primedRegs MK_SVC 2 ∧ t.rxRegs = s.rxRegs ∧
        t.events = s.events ∧ t.params = s.params ∧ t.bufInit = s.bufInit) ∧
    (¬(s.bufByte 2 = s.addr ∧ s.bufByte 3 = s.addr ^^^ s.bufByte 1) →
      exec (.svcChangeAddr c) s = .next { s with out := s.out.withLabel .svcRejected })

/-- R177: any byte 0 but the three codes selects it; only the label. -/
def Obligations.UnknownSubCommandIsDiscarded : Prop :=
  ∀ (s : State) (c : Byte),
    (∀ g b, b ≠ s.params.svcEcho → b ≠ s.params.svcDescribe → b ≠ s.params.svcChangeAddr →
      selectDispatch true g (subCommand s.params b) c = .svcUnknown c) ∧
    exec (.svcUnknown c) s = .next { s with out := s.out.withLabel .svcUnknown }

/-! ### Component primitives -/

/-- R100: one wire byte a call, and `done` when the logical byte is complete. -/
def Obligations.EncodePrimitiveEmitsOneByte : Prop :=
  ∀ (s : State) (v : Byte), ∃ t, exec (.encode v) s = .next t ∧
    (s.txEsc = true → TxEffect s t { s.txRegs with txEsc := false }
      { s.out with wire := some (v + 4), result := some (.done true) }) ∧
    (s.txEsc = false ∧ v ≤ 3 → TxEffect s t { s.txRegs with txEsc := true }
      { s.out with wire := some 0, result := some (.done false) }) ∧
    (s.txEsc = false ∧ 3 < v → TxEffect s t s.txRegs
      { s.out with wire := some v, result := some (.done true) })

/-- R101: the class and value of a wire byte under each value of the flag, and the flag after. -/
def Obligations.DecodePrimitiveClassifies : Prop :=
  ∀ (s : State) (b : Byte), ∃ t c, exec (.decode b) s = .next t ∧
    RxEffect s t { s.rxRegs with rxEsc := decide (s.rxEsc = false ∧ b = 0) }
      { s.out with result := some (.decoded c) } ∧
    (s.rxEsc = true → c = .data (b - 4)) ∧ (s.rxEsc = false → b = 0 → c = .esc) ∧
    (s.rxEsc = false → b = 1 → c = .mark .svc) ∧ (s.rxEsc = false → b = 2 → c = .mark .reg) ∧
    (s.rxEsc = false → b = 3 → c = .mark .grp) ∧ (s.rxEsc = false → 4 ≤ b → c = .data b)

/-- R110 to R112 on the receive and the transmit accumulator: zero it, add modulo 256, read its complement. -/
def Obligations.ChecksumPrimitivesCompute : Prop :=
  ∀ (s : State) (v : Byte),
    exec (.csumInit .rx) s = .next { s with rxSum := 0 } ∧ exec (.csumInit .tx) s = .next { s with txSum := 0 } ∧
    exec (.csumAdd .rx v) s = .next { s with rxSum := s.rxSum + v } ∧
    exec (.csumAdd .tx v) s = .next { s with txSum := s.txSum + v } ∧
    exec (.csumFinal .rx) s = .next { s with
      out := { s.out with result := some (.value (BitVec.ofNat 8 ((256 - s.rxSum.toNat) % 256))) } } ∧
    exec (.csumFinal .tx) s = .next { s with
      out := { s.out with result := some (.value (BitVec.ofNat 8 ((256 - s.txSum.toNat) % 256))) } }

/-- R113: the accumulator takes the byte in, and the verdict is true for exactly one byte, the sum's complement. -/
def Obligations.ChecksumCheckAcceptsOneByte : Prop :=
  ∀ (s : State) (c : Byte),
    exec (.csumCheck .rx c) s = .next { s with
      rxSum := s.rxSum + c, out := { s.out with result := some (.accepted (decide (c = -s.rxSum))) } } ∧
    exec (.csumCheck .tx c) s = .next { s with
      txSum := s.txSum + c, out := { s.out with result := some (.accepted (decide (c = -s.txSum))) } }

/-! ### The buffer -/

/-- R52 and R53: what is written below BUF_CAP reads back, every other byte stays, a write at or above it has no effect,
and the canonical form is kept. -/
def Obligations.BufferWritesReadBack : Prop :=
  ∀ (s : State) (i : Nat) (v : Byte), Memory.wf s = true →
    (i < s.params.bufCap → (memRead i (memWrite i v s)).1 = v) ∧
    (s.params.bufCap ≤ i → memWrite i v s = s) ∧
    (∀ j, j ≠ i → (memWrite i v s).bufByte j = s.bufByte j) ∧ Memory.wf (memWrite i v s) = true

/-- R54: a step changes a byte of the buffer only as a Reset, by a decoded payload byte at `rxIdx`, or in the dispatch of
a frame that passed: the first two bytes in a service frame's Describe or ChangeAddress that validates, the first OUT_CAP
in a regular or group frame's. -/
def Obligations.OnlyPayloadDispatchAndResetWriteTheBuffer : Prop :=
  ∀ (s t : State) (i : Nat), Memory.wf s = true → s.params.wf = true → step s = .next t →
    t.bufByte i ≠ s.bufByte i → ∃ w rest, s.events = w :: rest ∧
      (w.kind = KIND_RESET ∨
        w.kind = KIND_RX ∧ ∃ v, (decodeByte s.rxEsc w.byte).1 = .data v ∧
          (s.rxState = .waitData ∧ i = s.rxIdx.toNat ∧ i < s.params.bufCap ∧ t.bufByte i = v ∨
            s.rxState = .waitChecksum ∧ s.rxSum + v = 0 ∧
              (s.isSvc = true ∧ i < 2 ∧ (s.bufByte 0 = s.params.svcDescribe ∨ holdsChangeAddress s = true) ∨
                s.isSvc = false ∧ i < s.params.outCap)))

/-! ### Rules over all events -/

/-- R37 and R150: a tick always has a step; it writes only `txState`, `txEsc`, `txSum` and `txIdx`. -/
def Obligations.TicksWriteOnlyTheTransmitSide : Prop :=
  ∀ (s : State) (w : EvWord) (rest : List EvWord), s.events = w :: rest → w.kind = KIND_TICK →
    ∃ t, step s = .next t ∧ t.rxRegs = s.rxRegs ∧ t.addr = s.addr ∧ SameBuffer s t ∧
      t.txLen = s.txLen ∧ t.txMark = s.txMark ∧ t.storeRdata = s.storeRdata ∧ t.params = s.params ∧
      t.out.store = none ∧ t.out.hcall = none ∧ t.out.labels = []

/-- R120: a received byte that does not complete a frame with the right checksum leaves the address and every transmit
register alone and raises no output but a label. -/
def Obligations.ReceivingDoesNotTouchTheTransmitSide : Prop :=
  ∀ (s : State) (b : Byte) (rest : List EvWord), s.events = rxWord b :: rest →
    (∀ v, (decodeByte s.rxEsc b).1 = .data v → ¬(s.rxState = .waitChecksum ∧ s.rxSum + v = 0)) →
    ∃ t, step s = .next t ∧ t.txRegs = s.txRegs ∧ t.addr = s.addr ∧
      t.out.wire = none ∧ t.out.store = none ∧ t.out.hcall = none

/-- R179: a received byte primes a reply exactly when it is the right checksum byte of a frame that is answered: a
regular one, or a service one with Echo, Describe or a ChangeAddress that validates. -/
def Obligations.RepliesArePrimedExactlyWhenDue : Prop :=
  ∀ (s t : State) (b : Byte) (rest : List EvWord), s.params.wf = true → s.events = rxWord b :: rest →
    step s = .next t →
    ((∃ v, (decodeByte s.rxEsc b).1 = .data v ∧ s.rxState = .waitChecksum ∧ s.rxSum + v = 0 ∧ replies s = true) →
      t.txRegs = primedRegs (if s.isSvc then MK_SVC else MK_REG) (replyLength s)) ∧
    (¬(∃ v, (decodeByte s.rxEsc b).1 = .data v ∧ s.rxState = .waitChecksum ∧ s.rxSum + v = 0 ∧ replies s = true) →
      t.txRegs = s.txRegs)

/-- R179: whatever byte arrives during a group frame, no reply is primed. -/
def Obligations.GroupFramesNeverPrime : Prop :=
  ∀ (s t : State) (b : Byte) (rest : List EvWord), s.events = rxWord b :: rest → s.isSvc = false → s.isGrp = true →
    step s = .next t → t.txRegs = s.txRegs ∧ t.out.wire = none

/-- R22: the address changes only at a Reset, to what the store presents, or by a successful ChangeAddress: in the step
of the right checksum byte of a service frame that holds one that validates, to its newAddress, which that step persists.
Four bytes of buffer are what R8 gives every instance. -/
def Obligations.AddressHasTwoWriters : Prop :=
  ∀ s t : State, step s = .next t → t.addr ≠ s.addr → ∃ w rest, s.events = w :: rest ∧
    (w.kind = KIND_RESET ∧ t.addr = s.storeRdata ∨
      w.kind = KIND_RX ∧ s.rxState = .waitChecksum ∧ s.isSvc = true ∧ t.out.store = some t.addr ∧
        (∃ v, (decodeByte s.rxEsc w.byte).1 = .data v ∧ s.rxSum + v = 0) ∧
        (4 ≤ s.params.bufCap → holdsChangeAddress s = true ∧ t.addr = s.bufByte 1))

/-- R25: only an unescaped marker and a Reset write the frame-kind flags. -/
def Obligations.OnlyMarkersWriteTheFrameKind : Prop :=
  ∀ s t : State, step s = .next t →
    (∀ w rest, s.events = w :: rest → w.kind ≠ KIND_RESET ∧
      ¬(w.kind = KIND_RX ∧ s.rxEsc = false ∧ (w.byte = MK_SVC ∨ w.byte = MK_REG ∨ w.byte = MK_GRP))) →
    t.isSvc = s.isSvc ∧ t.isGrp = s.isGrp

/-- R37: what a tick sends and does to the transmit registers does not depend on any receive register. -/
def Obligations.TicksIgnoreTheReceiveSide : Prop :=
  ∀ s s' t t' : State, ∀ w w' rest rest', s.events = w :: rest → s'.events = w' :: rest' →
    w.kind = KIND_TICK → w'.kind = KIND_TICK →
    s.txRegs = s'.txRegs → s.addr = s'.addr → s.params.bufCap = s'.params.bufCap → s.draws = s'.draws →
    (∀ i, s.bufByte i = s'.bufByte i) → step s = .next t → step s' = .next t' →
    t.txRegs = t'.txRegs ∧ t.out = t'.out

/-- R37: what a received byte does to the receive registers, the address and the buffer, and its outputs, do not depend on
any transmit register. The buffer's canonical form is the model's (log 6). -/
def Obligations.ReceivingIgnoresTheTransmitSide : Prop :=
  ∀ s s' t t' : State, ∀ b rest rest', s.events = rxWord b :: rest → s'.events = rxWord b :: rest' →
    s.rxRegs = s'.rxRegs → s.addr = s'.addr → s.params = s'.params → s.draws = s'.draws →
    (∀ i, s.bufByte i = s'.bufByte i) → step s = .next t → step s' = .next t' →
    t.rxRegs = t'.rxRegs ∧ t.addr = t'.addr ∧ t.out = t'.out ∧
    (Memory.wf s = true → Memory.wf s' = true → ∀ i, t.bufByte i = t'.bufByte i)

/-- R233: a marker byte right after an unescaped prefix starts no frame: the flags stay, it is data `m - 4`, and with
no frame in progress nothing happens. -/
def Obligations.DanglingEscapeEatsTheMarker : Prop :=
  ∀ (s t : State) (m : Marker) (rest : List EvWord), s.rxEsc = true → s.events = rxWord m.byte :: rest →
    step s = .next t →
    decode (.ev s.ctx) (rxWord m.byte) = .ok (classifyData s.ctx (m.byte - SHIFT)) ∧
    t.isSvc = s.isSvc ∧ t.isGrp = s.isGrp ∧ t.rxEsc = false ∧
    (s.rxState = .idle → t.rxRegs = { s.rxRegs with rxEsc := false } ∧ t.out = {})

/-- R115: the sum sees neither order nor changes that add up to zero, and every single-bit flip of one summed byte or of
the checksum byte. -/
def Obligations.ChecksumSeesBitFlipsNotOrder : Prop :=
  (∀ xs ys : List Byte, xs.Perm ys → byteSum xs = byteSum ys) ∧
  (∀ xs ds : List Byte, xs.length = ds.length → byteSum ds = 0 → byteSum (List.zipWith (· + ·) xs ds) = byteSum xs) ∧
  (∀ (xs ys : List Byte) (x : Byte) (k : Nat), k < 8 →
    byteSum (xs ++ (x ^^^ (1 <<< k)) :: ys) ≠ byteSum (xs ++ x :: ys)) ∧
  ∀ (xs : List Byte) (k : Nat), k < 8 → byteSum xs + (checksumOf xs ^^^ (1 <<< k)) ≠ 0

/-! ### Whole frames -/

/-- R159 and R240 for a reply from the buffer: from a primed transmitter, as many ticks as the reply is long on the wire
emit exactly its wire bytes, further ticks emit nothing, and the transmitter is then Idle. -/
def Obligations.PrimedReplyGoesOutOnTheWire : Prop :=
  ∀ (s : State) (m n : Byte) (extra : Nat) (rest : List EvWord),
    s.txRegs = primedRegs m n → n.toNat ≤ s.params.bufCap →
    let fields := (s.addr ||| 0x80) :: n :: (List.range n.toNat).map s.bufByte
    let ticks := wireLength (fields ++ [checksumOf fields]) + extra
    s.events = List.replicate ticks tickWord ++ rest →
      lineBytes ticks s = m :: (fields ++ [checksumOf fields]).flatMap enc ∧
      ∃ t, Host.Core.run Sys2Proof.core ticks s = .next t ∧ t.txState = .idle ∧ t.events = rest ∧
        t.rxRegs = s.rxRegs ∧ t.addr = s.addr ∧ SameBuffer s t

/-- R134 for a request addressed to the device: whatever the receiver was doing, the wire bytes of the request lead it,
at the last event word, to a checksum byte that passes, with the frame's kind, length and payload in place and nothing
called, persisted or emitted before. -/
def Obligations.AddressedRequestReachesDispatch : Prop :=
  ∀ (s : State) (r : Request) (rest : List EvWord), Memory.wf s = true → s.rxEsc = false → r.payload.length ≤ 255 →
    addressedTo r s.addr = true → s.events = r.wire.map rxWord ++ rest →
    QuietRun (r.wire.length - 1) s ∧
    ∃ u w, Host.Core.run Sys2Proof.core (r.wire.length - 1) s = .next u ∧ u.events = w :: rest ∧
      decode (.ev u.ctx) w = .ok (.rxCsum (checksumOf r.body)) ∧ u.rxSum + checksumOf r.body = 0 ∧
      u.isSvc = decide (r.marker = .svc) ∧ u.isGrp = decide (r.marker = .grp) ∧
      u.rxLen = BitVec.ofNat 8 r.payload.length ∧
      (∀ i, u.bufByte i = if i < s.params.bufCap then r.payload.getD i (s.bufByte i) else s.bufByte i) ∧
      u.txRegs = s.txRegs ∧ u.addr = s.addr ∧ u.params = s.params

/-- R134 for a request addressed to another device, with any checksum byte: no step calls the handler, persists or emits,
and the device ends Idle, with its buffer, its address and its transmit registers as before. That the buffer stays follows
R54, R126 and R128; for R231's words on a frame "addressed elsewhere" see log 25 (DEDUCED). -/
def Obligations.RequestForAnotherDeviceIsIgnored : Prop :=
  ∀ (s : State) (r : Request) (c : Byte) (rest : List EvWord), s.rxEsc = false → r.payload.length ≤ 255 →
    addressedTo r s.addr = false →
    let wire := r.marker.byte :: r.tailWith c
    s.events = wire.map rxWord ++ rest →
    QuietRun wire.length s ∧
    ∃ t, Host.Core.run Sys2Proof.core wire.length s = .next t ∧ t.rxState = .idle ∧ t.rxEsc = false ∧
      t.out.hcall = none ∧ t.out.store = none ∧
      t.events = rest ∧ t.txRegs = s.txRegs ∧ t.addr = s.addr ∧ SameBuffer s t

/-- R134 for a request addressed to the device whose checksum byte is wrong: no dispatch, so no step calls the handler,
persists or emits, the buffer holds the payload as it came and the rest as before, and the device ends Idle. The label
names the path only (R41). -/
def Obligations.WrongChecksumFrameIsNotDispatched : Prop :=
  ∀ (s : State) (r : Request) (c : Byte) (rest : List EvWord), Memory.wf s = true → s.rxEsc = false →
    r.payload.length ≤ 255 → addressedTo r s.addr = true → c ≠ checksumOf r.body →
    let wire := r.marker.byte :: r.tailWith c
    s.events = wire.map rxWord ++ rest →
    QuietRun wire.length s ∧
    ∃ t, Host.Core.run Sys2Proof.core wire.length s = .next t ∧ t.rxState = .idle ∧ t.rxEsc = false ∧
      t.events = rest ∧ t.out.labels = [.checksumFail] ∧ t.out.hcall = none ∧ t.out.store = none ∧
      (∀ i, t.bufByte i = if i < s.params.bufCap then r.payload.getD i (s.bufByte i) else s.bufByte i) ∧
      t.txRegs = s.txRegs ∧ t.addr = s.addr

/-! ### The shared buffer -/

/-- R231: a payload byte that arrives while the byte at the same index is the next of a reply replaces it on the line: the
tick after it sends the new byte (or the first half of its escape pair), and sums what it sends. -/
def Obligations.PayloadByteReplacesTheReplyByte : Prop :=
  ∀ (s : State) (b v : Byte) (w : EvWord) (rest : List EvWord), Memory.wf s = true →
    s.events = rxWord b :: w :: rest → w.kind = KIND_TICK → (decodeByte s.rxEsc b).1 = .data v →
    s.rxState = .waitData → s.txState = .sendData → s.txIdx < s.txLen → s.rxIdx = s.txIdx →
    s.txIdx.toNat < s.params.bufCap →
    ∃ t u, step s = .next t ∧ t.txRegs = s.txRegs ∧ t.bufByte s.txIdx.toNat = v ∧
      step t = .next u ∧ u.rxRegs = t.rxRegs ∧ u.addr = s.addr ∧ SameBuffer t u ∧
      (s.txEsc = false ∧ MK_MAX < v → u.out.wire = some v) ∧
      (s.txEsc = false ∧ v ≤ MK_MAX → u.out.wire = some ESC ∧ u.txRegs = { s.txRegs with txEsc := true }) ∧
      (s.txEsc = true → u.out.wire = some (v + SHIFT)) ∧
      (s.txEsc = true ∨ MK_MAX < v →
        u.txRegs = { s.txRegs with txSum := s.txSum + v, txIdx := s.txIdx + 1, txEsc := false })
end

