-- ==== Sys2Proof/Laws/State.lean ====
section
/-! SUPPORT. One lemma per field per named update of the state, true by rfl, so that no later proof unfolds a record
update. `memWrite` changes only `buf`. -/

namespace Sys2Proof.Machine

/-! ### label -/

@[simp] theorem label_addr (r : Label) (s : State) : (label r s).addr = s.addr := rfl
@[simp] theorem label_rxState (r : Label) (s : State) : (label r s).rxState = s.rxState := rfl
@[simp] theorem label_rxEsc (r : Label) (s : State) : (label r s).rxEsc = s.rxEsc := rfl
@[simp] theorem label_isSvc (r : Label) (s : State) : (label r s).isSvc = s.isSvc := rfl
@[simp] theorem label_isGrp (r : Label) (s : State) : (label r s).isGrp = s.isGrp := rfl
@[simp] theorem label_rxSum (r : Label) (s : State) : (label r s).rxSum = s.rxSum := rfl
@[simp] theorem label_grpAddr (r : Label) (s : State) : (label r s).grpAddr = s.grpAddr := rfl
@[simp] theorem label_rxLen (r : Label) (s : State) : (label r s).rxLen = s.rxLen := rfl
@[simp] theorem label_rxIdx (r : Label) (s : State) : (label r s).rxIdx = s.rxIdx := rfl
@[simp] theorem label_buf (r : Label) (s : State) : (label r s).buf = s.buf := rfl
@[simp] theorem label_txState (r : Label) (s : State) : (label r s).txState = s.txState := rfl
@[simp] theorem label_txEsc (r : Label) (s : State) : (label r s).txEsc = s.txEsc := rfl
@[simp] theorem label_txSum (r : Label) (s : State) : (label r s).txSum = s.txSum := rfl
@[simp] theorem label_txLen (r : Label) (s : State) : (label r s).txLen = s.txLen := rfl
@[simp] theorem label_txIdx (r : Label) (s : State) : (label r s).txIdx = s.txIdx := rfl
@[simp] theorem label_txMark (r : Label) (s : State) : (label r s).txMark = s.txMark := rfl
@[simp] theorem label_events (r : Label) (s : State) : (label r s).events = s.events := rfl
@[simp] theorem label_storeRdata (r : Label) (s : State) : (label r s).storeRdata = s.storeRdata := rfl
@[simp] theorem label_out (r : Label) (s : State) : (label r s).out = { s.out with labels := s.out.labels ++ [r] } := rfl
@[simp] theorem label_params (r : Label) (s : State) : (label r s).params = s.params := rfl
@[simp] theorem label_bufInit (r : Label) (s : State) : (label r s).bufInit = s.bufInit := rfl
@[simp] theorem label_draws (r : Label) (s : State) : (label r s).draws = s.draws := rfl

/-! ### discard -/

@[simp] theorem discard_addr (r : Label) (s : State) : (discard r s).addr = s.addr := rfl
@[simp] theorem discard_rxState (r : Label) (s : State) : (discard r s).rxState = .idle := rfl
@[simp] theorem discard_rxEsc (r : Label) (s : State) : (discard r s).rxEsc = s.rxEsc := rfl
@[simp] theorem discard_isSvc (r : Label) (s : State) : (discard r s).isSvc = s.isSvc := rfl
@[simp] theorem discard_isGrp (r : Label) (s : State) : (discard r s).isGrp = s.isGrp := rfl
@[simp] theorem discard_rxSum (r : Label) (s : State) : (discard r s).rxSum = s.rxSum := rfl
@[simp] theorem discard_grpAddr (r : Label) (s : State) : (discard r s).grpAddr = s.grpAddr := rfl
@[simp] theorem discard_rxLen (r : Label) (s : State) : (discard r s).rxLen = s.rxLen := rfl
@[simp] theorem discard_rxIdx (r : Label) (s : State) : (discard r s).rxIdx = s.rxIdx := rfl
@[simp] theorem discard_buf (r : Label) (s : State) : (discard r s).buf = s.buf := rfl
@[simp] theorem discard_txState (r : Label) (s : State) : (discard r s).txState = s.txState := rfl
@[simp] theorem discard_txEsc (r : Label) (s : State) : (discard r s).txEsc = s.txEsc := rfl
@[simp] theorem discard_txSum (r : Label) (s : State) : (discard r s).txSum = s.txSum := rfl
@[simp] theorem discard_txLen (r : Label) (s : State) : (discard r s).txLen = s.txLen := rfl
@[simp] theorem discard_txIdx (r : Label) (s : State) : (discard r s).txIdx = s.txIdx := rfl
@[simp] theorem discard_txMark (r : Label) (s : State) : (discard r s).txMark = s.txMark := rfl
@[simp] theorem discard_events (r : Label) (s : State) : (discard r s).events = s.events := rfl
@[simp] theorem discard_storeRdata (r : Label) (s : State) : (discard r s).storeRdata = s.storeRdata := rfl
@[simp] theorem discard_out (r : Label) (s : State) : (discard r s).out = { s.out with labels := s.out.labels ++ [r] } := rfl
@[simp] theorem discard_params (r : Label) (s : State) : (discard r s).params = s.params := rfl
@[simp] theorem discard_bufInit (r : Label) (s : State) : (discard r s).bufInit = s.bufInit := rfl
@[simp] theorem discard_draws (r : Label) (s : State) : (discard r s).draws = s.draws := rfl

/-! ### emit -/

@[simp] theorem emit_addr (b : Byte) (s : State) : (emit b s).addr = s.addr := rfl
@[simp] theorem emit_rxState (b : Byte) (s : State) : (emit b s).rxState = s.rxState := rfl
@[simp] theorem emit_rxEsc (b : Byte) (s : State) : (emit b s).rxEsc = s.rxEsc := rfl
@[simp] theorem emit_isSvc (b : Byte) (s : State) : (emit b s).isSvc = s.isSvc := rfl
@[simp] theorem emit_isGrp (b : Byte) (s : State) : (emit b s).isGrp = s.isGrp := rfl
@[simp] theorem emit_rxSum (b : Byte) (s : State) : (emit b s).rxSum = s.rxSum := rfl
@[simp] theorem emit_grpAddr (b : Byte) (s : State) : (emit b s).grpAddr = s.grpAddr := rfl
@[simp] theorem emit_rxLen (b : Byte) (s : State) : (emit b s).rxLen = s.rxLen := rfl
@[simp] theorem emit_rxIdx (b : Byte) (s : State) : (emit b s).rxIdx = s.rxIdx := rfl
@[simp] theorem emit_buf (b : Byte) (s : State) : (emit b s).buf = s.buf := rfl
@[simp] theorem emit_txState (b : Byte) (s : State) : (emit b s).txState = s.txState := rfl
@[simp] theorem emit_txEsc (b : Byte) (s : State) : (emit b s).txEsc = s.txEsc := rfl
@[simp] theorem emit_txSum (b : Byte) (s : State) : (emit b s).txSum = s.txSum := rfl
@[simp] theorem emit_txLen (b : Byte) (s : State) : (emit b s).txLen = s.txLen := rfl
@[simp] theorem emit_txIdx (b : Byte) (s : State) : (emit b s).txIdx = s.txIdx := rfl
@[simp] theorem emit_txMark (b : Byte) (s : State) : (emit b s).txMark = s.txMark := rfl
@[simp] theorem emit_events (b : Byte) (s : State) : (emit b s).events = s.events := rfl
@[simp] theorem emit_storeRdata (b : Byte) (s : State) : (emit b s).storeRdata = s.storeRdata := rfl
@[simp] theorem emit_out (b : Byte) (s : State) : (emit b s).out = { s.out with wire := some b } := rfl
@[simp] theorem emit_params (b : Byte) (s : State) : (emit b s).params = s.params := rfl
@[simp] theorem emit_bufInit (b : Byte) (s : State) : (emit b s).bufInit = s.bufInit := rfl
@[simp] theorem emit_draws (b : Byte) (s : State) : (emit b s).draws = s.draws := rfl

/-! ### persist -/

@[simp] theorem persist_addr (b : Byte) (s : State) : (persist b s).addr = s.addr := rfl
@[simp] theorem persist_rxState (b : Byte) (s : State) : (persist b s).rxState = s.rxState := rfl
@[simp] theorem persist_rxEsc (b : Byte) (s : State) : (persist b s).rxEsc = s.rxEsc := rfl
@[simp] theorem persist_isSvc (b : Byte) (s : State) : (persist b s).isSvc = s.isSvc := rfl
@[simp] theorem persist_isGrp (b : Byte) (s : State) : (persist b s).isGrp = s.isGrp := rfl
@[simp] theorem persist_rxSum (b : Byte) (s : State) : (persist b s).rxSum = s.rxSum := rfl
@[simp] theorem persist_grpAddr (b : Byte) (s : State) : (persist b s).grpAddr = s.grpAddr := rfl
@[simp] theorem persist_rxLen (b : Byte) (s : State) : (persist b s).rxLen = s.rxLen := rfl
@[simp] theorem persist_rxIdx (b : Byte) (s : State) : (persist b s).rxIdx = s.rxIdx := rfl
@[simp] theorem persist_buf (b : Byte) (s : State) : (persist b s).buf = s.buf := rfl
@[simp] theorem persist_txState (b : Byte) (s : State) : (persist b s).txState = s.txState := rfl
@[simp] theorem persist_txEsc (b : Byte) (s : State) : (persist b s).txEsc = s.txEsc := rfl
@[simp] theorem persist_txSum (b : Byte) (s : State) : (persist b s).txSum = s.txSum := rfl
@[simp] theorem persist_txLen (b : Byte) (s : State) : (persist b s).txLen = s.txLen := rfl
@[simp] theorem persist_txIdx (b : Byte) (s : State) : (persist b s).txIdx = s.txIdx := rfl
@[simp] theorem persist_txMark (b : Byte) (s : State) : (persist b s).txMark = s.txMark := rfl
@[simp] theorem persist_events (b : Byte) (s : State) : (persist b s).events = s.events := rfl
@[simp] theorem persist_storeRdata (b : Byte) (s : State) : (persist b s).storeRdata = b := rfl
@[simp] theorem persist_out (b : Byte) (s : State) : (persist b s).out = { s.out with store := some b } := rfl
@[simp] theorem persist_params (b : Byte) (s : State) : (persist b s).params = s.params := rfl
@[simp] theorem persist_bufInit (b : Byte) (s : State) : (persist b s).bufInit = s.bufInit := rfl
@[simp] theorem persist_draws (b : Byte) (s : State) : (persist b s).draws = s.draws := rfl

/-! ### strobeHandler -/

@[simp] theorem strobeHandler_addr (p : List Byte) (s : State) : (strobeHandler p s).addr = s.addr := rfl
@[simp] theorem strobeHandler_rxState (p : List Byte) (s : State) : (strobeHandler p s).rxState = s.rxState := rfl
@[simp] theorem strobeHandler_rxEsc (p : List Byte) (s : State) : (strobeHandler p s).rxEsc = s.rxEsc := rfl
@[simp] theorem strobeHandler_isSvc (p : List Byte) (s : State) : (strobeHandler p s).isSvc = s.isSvc := rfl
@[simp] theorem strobeHandler_isGrp (p : List Byte) (s : State) : (strobeHandler p s).isGrp = s.isGrp := rfl
@[simp] theorem strobeHandler_rxSum (p : List Byte) (s : State) : (strobeHandler p s).rxSum = s.rxSum := rfl
@[simp] theorem strobeHandler_grpAddr (p : List Byte) (s : State) : (strobeHandler p s).grpAddr = s.grpAddr := rfl
@[simp] theorem strobeHandler_rxLen (p : List Byte) (s : State) : (strobeHandler p s).rxLen = s.rxLen := rfl
@[simp] theorem strobeHandler_rxIdx (p : List Byte) (s : State) : (strobeHandler p s).rxIdx = s.rxIdx := rfl
@[simp] theorem strobeHandler_buf (p : List Byte) (s : State) : (strobeHandler p s).buf = s.buf := rfl
@[simp] theorem strobeHandler_txState (p : List Byte) (s : State) : (strobeHandler p s).txState = s.txState := rfl
@[simp] theorem strobeHandler_txEsc (p : List Byte) (s : State) : (strobeHandler p s).txEsc = s.txEsc := rfl
@[simp] theorem strobeHandler_txSum (p : List Byte) (s : State) : (strobeHandler p s).txSum = s.txSum := rfl
@[simp] theorem strobeHandler_txLen (p : List Byte) (s : State) : (strobeHandler p s).txLen = s.txLen := rfl
@[simp] theorem strobeHandler_txIdx (p : List Byte) (s : State) : (strobeHandler p s).txIdx = s.txIdx := rfl
@[simp] theorem strobeHandler_txMark (p : List Byte) (s : State) : (strobeHandler p s).txMark = s.txMark := rfl
@[simp] theorem strobeHandler_events (p : List Byte) (s : State) : (strobeHandler p s).events = s.events := rfl
@[simp] theorem strobeHandler_storeRdata (p : List Byte) (s : State) : (strobeHandler p s).storeRdata = s.storeRdata := rfl
@[simp] theorem strobeHandler_out (p : List Byte) (s : State) : (strobeHandler p s).out = { s.out with hcall := some p } := rfl
@[simp] theorem strobeHandler_params (p : List Byte) (s : State) : (strobeHandler p s).params = s.params := rfl
@[simp] theorem strobeHandler_bufInit (p : List Byte) (s : State) : (strobeHandler p s).bufInit = s.bufInit := rfl
@[simp] theorem strobeHandler_draws (p : List Byte) (s : State) : (strobeHandler p s).draws = s.draws := rfl

/-! ### returnValue -/

@[simp] theorem returnValue_addr (r : PrimResult) (s : State) : (returnValue r s).addr = s.addr := rfl
@[simp] theorem returnValue_rxState (r : PrimResult) (s : State) : (returnValue r s).rxState = s.rxState := rfl
@[simp] theorem returnValue_rxEsc (r : PrimResult) (s : State) : (returnValue r s).rxEsc = s.rxEsc := rfl
@[simp] theorem returnValue_isSvc (r : PrimResult) (s : State) : (returnValue r s).isSvc = s.isSvc := rfl
@[simp] theorem returnValue_isGrp (r : PrimResult) (s : State) : (returnValue r s).isGrp = s.isGrp := rfl
@[simp] theorem returnValue_rxSum (r : PrimResult) (s : State) : (returnValue r s).rxSum = s.rxSum := rfl
@[simp] theorem returnValue_grpAddr (r : PrimResult) (s : State) : (returnValue r s).grpAddr = s.grpAddr := rfl
@[simp] theorem returnValue_rxLen (r : PrimResult) (s : State) : (returnValue r s).rxLen = s.rxLen := rfl
@[simp] theorem returnValue_rxIdx (r : PrimResult) (s : State) : (returnValue r s).rxIdx = s.rxIdx := rfl
@[simp] theorem returnValue_buf (r : PrimResult) (s : State) : (returnValue r s).buf = s.buf := rfl
@[simp] theorem returnValue_txState (r : PrimResult) (s : State) : (returnValue r s).txState = s.txState := rfl
@[simp] theorem returnValue_txEsc (r : PrimResult) (s : State) : (returnValue r s).txEsc = s.txEsc := rfl
@[simp] theorem returnValue_txSum (r : PrimResult) (s : State) : (returnValue r s).txSum = s.txSum := rfl
@[simp] theorem returnValue_txLen (r : PrimResult) (s : State) : (returnValue r s).txLen = s.txLen := rfl
@[simp] theorem returnValue_txIdx (r : PrimResult) (s : State) : (returnValue r s).txIdx = s.txIdx := rfl
@[simp] theorem returnValue_txMark (r : PrimResult) (s : State) : (returnValue r s).txMark = s.txMark := rfl
@[simp] theorem returnValue_events (r : PrimResult) (s : State) : (returnValue r s).events = s.events := rfl
@[simp] theorem returnValue_storeRdata (r : PrimResult) (s : State) : (returnValue r s).storeRdata = s.storeRdata := rfl
@[simp] theorem returnValue_out (r : PrimResult) (s : State) : (returnValue r s).out = { s.out with result := some r } := rfl
@[simp] theorem returnValue_params (r : PrimResult) (s : State) : (returnValue r s).params = s.params := rfl
@[simp] theorem returnValue_bufInit (r : PrimResult) (s : State) : (returnValue r s).bufInit = s.bufInit := rfl
@[simp] theorem returnValue_draws (r : PrimResult) (s : State) : (returnValue r s).draws = s.draws := rfl

/-! ### setFrameKind -/

@[simp] theorem setFrameKind_addr (m : Marker) (s : State) : (setFrameKind m s).addr = s.addr := rfl
@[simp] theorem setFrameKind_rxState (m : Marker) (s : State) : (setFrameKind m s).rxState = s.rxState := rfl
@[simp] theorem setFrameKind_rxEsc (m : Marker) (s : State) : (setFrameKind m s).rxEsc = s.rxEsc := rfl
@[simp] theorem setFrameKind_isSvc (m : Marker) (s : State) : (setFrameKind m s).isSvc = (m == .svc) := rfl
@[simp] theorem setFrameKind_isGrp (m : Marker) (s : State) : (setFrameKind m s).isGrp = (m == .grp) := rfl
@[simp] theorem setFrameKind_rxSum (m : Marker) (s : State) : (setFrameKind m s).rxSum = s.rxSum := rfl
@[simp] theorem setFrameKind_grpAddr (m : Marker) (s : State) : (setFrameKind m s).grpAddr = s.grpAddr := rfl
@[simp] theorem setFrameKind_rxLen (m : Marker) (s : State) : (setFrameKind m s).rxLen = s.rxLen := rfl
@[simp] theorem setFrameKind_rxIdx (m : Marker) (s : State) : (setFrameKind m s).rxIdx = s.rxIdx := rfl
@[simp] theorem setFrameKind_buf (m : Marker) (s : State) : (setFrameKind m s).buf = s.buf := rfl
@[simp] theorem setFrameKind_txState (m : Marker) (s : State) : (setFrameKind m s).txState = s.txState := rfl
@[simp] theorem setFrameKind_txEsc (m : Marker) (s : State) : (setFrameKind m s).txEsc = s.txEsc := rfl
@[simp] theorem setFrameKind_txSum (m : Marker) (s : State) : (setFrameKind m s).txSum = s.txSum := rfl
@[simp] theorem setFrameKind_txLen (m : Marker) (s : State) : (setFrameKind m s).txLen = s.txLen := rfl
@[simp] theorem setFrameKind_txIdx (m : Marker) (s : State) : (setFrameKind m s).txIdx = s.txIdx := rfl
@[simp] theorem setFrameKind_txMark (m : Marker) (s : State) : (setFrameKind m s).txMark = s.txMark := rfl
@[simp] theorem setFrameKind_events (m : Marker) (s : State) : (setFrameKind m s).events = s.events := rfl
@[simp] theorem setFrameKind_storeRdata (m : Marker) (s : State) : (setFrameKind m s).storeRdata = s.storeRdata := rfl
@[simp] theorem setFrameKind_out (m : Marker) (s : State) : (setFrameKind m s).out = s.out := rfl
@[simp] theorem setFrameKind_params (m : Marker) (s : State) : (setFrameKind m s).params = s.params := rfl
@[simp] theorem setFrameKind_bufInit (m : Marker) (s : State) : (setFrameKind m s).bufInit = s.bufInit := rfl
@[simp] theorem setFrameKind_draws (m : Marker) (s : State) : (setFrameKind m s).draws = s.draws := rfl

/-! ### setAccum_rx -/

@[simp] theorem setAccum_rx_addr (x : Byte) (s : State) : (setAccum .rx x s).addr = s.addr := rfl
@[simp] theorem setAccum_rx_rxState (x : Byte) (s : State) : (setAccum .rx x s).rxState = s.rxState := rfl
@[simp] theorem setAccum_rx_rxEsc (x : Byte) (s : State) : (setAccum .rx x s).rxEsc = s.rxEsc := rfl
@[simp] theorem setAccum_rx_isSvc (x : Byte) (s : State) : (setAccum .rx x s).isSvc = s.isSvc := rfl
@[simp] theorem setAccum_rx_isGrp (x : Byte) (s : State) : (setAccum .rx x s).isGrp = s.isGrp := rfl
@[simp] theorem setAccum_rx_rxSum (x : Byte) (s : State) : (setAccum .rx x s).rxSum = x := rfl
@[simp] theorem setAccum_rx_grpAddr (x : Byte) (s : State) : (setAccum .rx x s).grpAddr = s.grpAddr := rfl
@[simp] theorem setAccum_rx_rxLen (x : Byte) (s : State) : (setAccum .rx x s).rxLen = s.rxLen := rfl
@[simp] theorem setAccum_rx_rxIdx (x : Byte) (s : State) : (setAccum .rx x s).rxIdx = s.rxIdx := rfl
@[simp] theorem setAccum_rx_buf (x : Byte) (s : State) : (setAccum .rx x s).buf = s.buf := rfl
@[simp] theorem setAccum_rx_txState (x : Byte) (s : State) : (setAccum .rx x s).txState = s.txState := rfl
@[simp] theorem setAccum_rx_txEsc (x : Byte) (s : State) : (setAccum .rx x s).txEsc = s.txEsc := rfl
@[simp] theorem setAccum_rx_txSum (x : Byte) (s : State) : (setAccum .rx x s).txSum = s.txSum := rfl
@[simp] theorem setAccum_rx_txLen (x : Byte) (s : State) : (setAccum .rx x s).txLen = s.txLen := rfl
@[simp] theorem setAccum_rx_txIdx (x : Byte) (s : State) : (setAccum .rx x s).txIdx = s.txIdx := rfl
@[simp] theorem setAccum_rx_txMark (x : Byte) (s : State) : (setAccum .rx x s).txMark = s.txMark := rfl
@[simp] theorem setAccum_rx_events (x : Byte) (s : State) : (setAccum .rx x s).events = s.events := rfl
@[simp] theorem setAccum_rx_storeRdata (x : Byte) (s : State) : (setAccum .rx x s).storeRdata = s.storeRdata := rfl
@[simp] theorem setAccum_rx_out (x : Byte) (s : State) : (setAccum .rx x s).out = s.out := rfl
@[simp] theorem setAccum_rx_params (x : Byte) (s : State) : (setAccum .rx x s).params = s.params := rfl
@[simp] theorem setAccum_rx_bufInit (x : Byte) (s : State) : (setAccum .rx x s).bufInit = s.bufInit := rfl
@[simp] theorem setAccum_rx_draws (x : Byte) (s : State) : (setAccum .rx x s).draws = s.draws := rfl

/-! ### setAccum_tx -/

@[simp] theorem setAccum_tx_addr (x : Byte) (s : State) : (setAccum .tx x s).addr = s.addr := rfl
@[simp] theorem setAccum_tx_rxState (x : Byte) (s : State) : (setAccum .tx x s).rxState = s.rxState := rfl
@[simp] theorem setAccum_tx_rxEsc (x : Byte) (s : State) : (setAccum .tx x s).rxEsc = s.rxEsc := rfl
@[simp] theorem setAccum_tx_isSvc (x : Byte) (s : State) : (setAccum .tx x s).isSvc = s.isSvc := rfl
@[simp] theorem setAccum_tx_isGrp (x : Byte) (s : State) : (setAccum .tx x s).isGrp = s.isGrp := rfl
@[simp] theorem setAccum_tx_rxSum (x : Byte) (s : State) : (setAccum .tx x s).rxSum = s.rxSum := rfl
@[simp] theorem setAccum_tx_grpAddr (x : Byte) (s : State) : (setAccum .tx x s).grpAddr = s.grpAddr := rfl
@[simp] theorem setAccum_tx_rxLen (x : Byte) (s : State) : (setAccum .tx x s).rxLen = s.rxLen := rfl
@[simp] theorem setAccum_tx_rxIdx (x : Byte) (s : State) : (setAccum .tx x s).rxIdx = s.rxIdx := rfl
@[simp] theorem setAccum_tx_buf (x : Byte) (s : State) : (setAccum .tx x s).buf = s.buf := rfl
@[simp] theorem setAccum_tx_txState (x : Byte) (s : State) : (setAccum .tx x s).txState = s.txState := rfl
@[simp] theorem setAccum_tx_txEsc (x : Byte) (s : State) : (setAccum .tx x s).txEsc = s.txEsc := rfl
@[simp] theorem setAccum_tx_txSum (x : Byte) (s : State) : (setAccum .tx x s).txSum = x := rfl
@[simp] theorem setAccum_tx_txLen (x : Byte) (s : State) : (setAccum .tx x s).txLen = s.txLen := rfl
@[simp] theorem setAccum_tx_txIdx (x : Byte) (s : State) : (setAccum .tx x s).txIdx = s.txIdx := rfl
@[simp] theorem setAccum_tx_txMark (x : Byte) (s : State) : (setAccum .tx x s).txMark = s.txMark := rfl
@[simp] theorem setAccum_tx_events (x : Byte) (s : State) : (setAccum .tx x s).events = s.events := rfl
@[simp] theorem setAccum_tx_storeRdata (x : Byte) (s : State) : (setAccum .tx x s).storeRdata = s.storeRdata := rfl
@[simp] theorem setAccum_tx_out (x : Byte) (s : State) : (setAccum .tx x s).out = s.out := rfl
@[simp] theorem setAccum_tx_params (x : Byte) (s : State) : (setAccum .tx x s).params = s.params := rfl
@[simp] theorem setAccum_tx_bufInit (x : Byte) (s : State) : (setAccum .tx x s).bufInit = s.bufInit := rfl
@[simp] theorem setAccum_tx_draws (x : Byte) (s : State) : (setAccum .tx x s).draws = s.draws := rfl

/-! ### csumInit_rx -/

@[simp] theorem csumInit_rx_addr (s : State) : (csumInit .rx s).addr = s.addr := rfl
@[simp] theorem csumInit_rx_rxState (s : State) : (csumInit .rx s).rxState = s.rxState := rfl
@[simp] theorem csumInit_rx_rxEsc (s : State) : (csumInit .rx s).rxEsc = s.rxEsc := rfl
@[simp] theorem csumInit_rx_isSvc (s : State) : (csumInit .rx s).isSvc = s.isSvc := rfl
@[simp] theorem csumInit_rx_isGrp (s : State) : (csumInit .rx s).isGrp = s.isGrp := rfl
@[simp] theorem csumInit_rx_rxSum (s : State) : (csumInit .rx s).rxSum = 0 := rfl
@[simp] theorem csumInit_rx_grpAddr (s : State) : (csumInit .rx s).grpAddr = s.grpAddr := rfl
@[simp] theorem csumInit_rx_rxLen (s : State) : (csumInit .rx s).rxLen = s.rxLen := rfl
@[simp] theorem csumInit_rx_rxIdx (s : State) : (csumInit .rx s).rxIdx = s.rxIdx := rfl
@[simp] theorem csumInit_rx_buf (s : State) : (csumInit .rx s).buf = s.buf := rfl
@[simp] theorem csumInit_rx_txState (s : State) : (csumInit .rx s).txState = s.txState := rfl
@[simp] theorem csumInit_rx_txEsc (s : State) : (csumInit .rx s).txEsc = s.txEsc := rfl
@[simp] theorem csumInit_rx_txSum (s : State) : (csumInit .rx s).txSum = s.txSum := rfl
@[simp] theorem csumInit_rx_txLen (s : State) : (csumInit .rx s).txLen = s.txLen := rfl
@[simp] theorem csumInit_rx_txIdx (s : State) : (csumInit .rx s).txIdx = s.txIdx := rfl
@[simp] theorem csumInit_rx_txMark (s : State) : (csumInit .rx s).txMark = s.txMark := rfl
@[simp] theorem csumInit_rx_events (s : State) : (csumInit .rx s).events = s.events := rfl
@[simp] theorem csumInit_rx_storeRdata (s : State) : (csumInit .rx s).storeRdata = s.storeRdata := rfl
@[simp] theorem csumInit_rx_out (s : State) : (csumInit .rx s).out = s.out := rfl
@[simp] theorem csumInit_rx_params (s : State) : (csumInit .rx s).params = s.params := rfl
@[simp] theorem csumInit_rx_bufInit (s : State) : (csumInit .rx s).bufInit = s.bufInit := rfl
@[simp] theorem csumInit_rx_draws (s : State) : (csumInit .rx s).draws = s.draws := rfl

/-! ### csumInit_tx -/

@[simp] theorem csumInit_tx_addr (s : State) : (csumInit .tx s).addr = s.addr := rfl
@[simp] theorem csumInit_tx_rxState (s : State) : (csumInit .tx s).rxState = s.rxState := rfl
@[simp] theorem csumInit_tx_rxEsc (s : State) : (csumInit .tx s).rxEsc = s.rxEsc := rfl
@[simp] theorem csumInit_tx_isSvc (s : State) : (csumInit .tx s).isSvc = s.isSvc := rfl
@[simp] theorem csumInit_tx_isGrp (s : State) : (csumInit .tx s).isGrp = s.isGrp := rfl
@[simp] theorem csumInit_tx_rxSum (s : State) : (csumInit .tx s).rxSum = s.rxSum := rfl
@[simp] theorem csumInit_tx_grpAddr (s : State) : (csumInit .tx s).grpAddr = s.grpAddr := rfl
@[simp] theorem csumInit_tx_rxLen (s : State) : (csumInit .tx s).rxLen = s.rxLen := rfl
@[simp] theorem csumInit_tx_rxIdx (s : State) : (csumInit .tx s).rxIdx = s.rxIdx := rfl
@[simp] theorem csumInit_tx_buf (s : State) : (csumInit .tx s).buf = s.buf := rfl
@[simp] theorem csumInit_tx_txState (s : State) : (csumInit .tx s).txState = s.txState := rfl
@[simp] theorem csumInit_tx_txEsc (s : State) : (csumInit .tx s).txEsc = s.txEsc := rfl
@[simp] theorem csumInit_tx_txSum (s : State) : (csumInit .tx s).txSum = 0 := rfl
@[simp] theorem csumInit_tx_txLen (s : State) : (csumInit .tx s).txLen = s.txLen := rfl
@[simp] theorem csumInit_tx_txIdx (s : State) : (csumInit .tx s).txIdx = s.txIdx := rfl
@[simp] theorem csumInit_tx_txMark (s : State) : (csumInit .tx s).txMark = s.txMark := rfl
@[simp] theorem csumInit_tx_events (s : State) : (csumInit .tx s).events = s.events := rfl
@[simp] theorem csumInit_tx_storeRdata (s : State) : (csumInit .tx s).storeRdata = s.storeRdata := rfl
@[simp] theorem csumInit_tx_out (s : State) : (csumInit .tx s).out = s.out := rfl
@[simp] theorem csumInit_tx_params (s : State) : (csumInit .tx s).params = s.params := rfl
@[simp] theorem csumInit_tx_bufInit (s : State) : (csumInit .tx s).bufInit = s.bufInit := rfl
@[simp] theorem csumInit_tx_draws (s : State) : (csumInit .tx s).draws = s.draws := rfl

/-! ### csumAdd_rx -/

@[simp] theorem csumAdd_rx_addr (v : Byte) (s : State) : (csumAdd .rx v s).addr = s.addr := rfl
@[simp] theorem csumAdd_rx_rxState (v : Byte) (s : State) : (csumAdd .rx v s).rxState = s.rxState := rfl
@[simp] theorem csumAdd_rx_rxEsc (v : Byte) (s : State) : (csumAdd .rx v s).rxEsc = s.rxEsc := rfl
@[simp] theorem csumAdd_rx_isSvc (v : Byte) (s : State) : (csumAdd .rx v s).isSvc = s.isSvc := rfl
@[simp] theorem csumAdd_rx_isGrp (v : Byte) (s : State) : (csumAdd .rx v s).isGrp = s.isGrp := rfl
@[simp] theorem csumAdd_rx_rxSum (v : Byte) (s : State) : (csumAdd .rx v s).rxSum = s.rxSum + v := rfl
@[simp] theorem csumAdd_rx_grpAddr (v : Byte) (s : State) : (csumAdd .rx v s).grpAddr = s.grpAddr := rfl
@[simp] theorem csumAdd_rx_rxLen (v : Byte) (s : State) : (csumAdd .rx v s).rxLen = s.rxLen := rfl
@[simp] theorem csumAdd_rx_rxIdx (v : Byte) (s : State) : (csumAdd .rx v s).rxIdx = s.rxIdx := rfl
@[simp] theorem csumAdd_rx_buf (v : Byte) (s : State) : (csumAdd .rx v s).buf = s.buf := rfl
@[simp] theorem csumAdd_rx_txState (v : Byte) (s : State) : (csumAdd .rx v s).txState = s.txState := rfl
@[simp] theorem csumAdd_rx_txEsc (v : Byte) (s : State) : (csumAdd .rx v s).txEsc = s.txEsc := rfl
@[simp] theorem csumAdd_rx_txSum (v : Byte) (s : State) : (csumAdd .rx v s).txSum = s.txSum := rfl
@[simp] theorem csumAdd_rx_txLen (v : Byte) (s : State) : (csumAdd .rx v s).txLen = s.txLen := rfl
@[simp] theorem csumAdd_rx_txIdx (v : Byte) (s : State) : (csumAdd .rx v s).txIdx = s.txIdx := rfl
@[simp] theorem csumAdd_rx_txMark (v : Byte) (s : State) : (csumAdd .rx v s).txMark = s.txMark := rfl
@[simp] theorem csumAdd_rx_events (v : Byte) (s : State) : (csumAdd .rx v s).events = s.events := rfl
@[simp] theorem csumAdd_rx_storeRdata (v : Byte) (s : State) : (csumAdd .rx v s).storeRdata = s.storeRdata := rfl
@[simp] theorem csumAdd_rx_out (v : Byte) (s : State) : (csumAdd .rx v s).out = s.out := rfl
@[simp] theorem csumAdd_rx_params (v : Byte) (s : State) : (csumAdd .rx v s).params = s.params := rfl
@[simp] theorem csumAdd_rx_bufInit (v : Byte) (s : State) : (csumAdd .rx v s).bufInit = s.bufInit := rfl
@[simp] theorem csumAdd_rx_draws (v : Byte) (s : State) : (csumAdd .rx v s).draws = s.draws := rfl

/-! ### csumAdd_tx -/

@[simp] theorem csumAdd_tx_addr (v : Byte) (s : State) : (csumAdd .tx v s).addr = s.addr := rfl
@[simp] theorem csumAdd_tx_rxState (v : Byte) (s : State) : (csumAdd .tx v s).rxState = s.rxState := rfl
@[simp] theorem csumAdd_tx_rxEsc (v : Byte) (s : State) : (csumAdd .tx v s).rxEsc = s.rxEsc := rfl
@[simp] theorem csumAdd_tx_isSvc (v : Byte) (s : State) : (csumAdd .tx v s).isSvc = s.isSvc := rfl
@[simp] theorem csumAdd_tx_isGrp (v : Byte) (s : State) : (csumAdd .tx v s).isGrp = s.isGrp := rfl
@[simp] theorem csumAdd_tx_rxSum (v : Byte) (s : State) : (csumAdd .tx v s).rxSum = s.rxSum := rfl
@[simp] theorem csumAdd_tx_grpAddr (v : Byte) (s : State) : (csumAdd .tx v s).grpAddr = s.grpAddr := rfl
@[simp] theorem csumAdd_tx_rxLen (v : Byte) (s : State) : (csumAdd .tx v s).rxLen = s.rxLen := rfl
@[simp] theorem csumAdd_tx_rxIdx (v : Byte) (s : State) : (csumAdd .tx v s).rxIdx = s.rxIdx := rfl
@[simp] theorem csumAdd_tx_buf (v : Byte) (s : State) : (csumAdd .tx v s).buf = s.buf := rfl
@[simp] theorem csumAdd_tx_txState (v : Byte) (s : State) : (csumAdd .tx v s).txState = s.txState := rfl
@[simp] theorem csumAdd_tx_txEsc (v : Byte) (s : State) : (csumAdd .tx v s).txEsc = s.txEsc := rfl
@[simp] theorem csumAdd_tx_txSum (v : Byte) (s : State) : (csumAdd .tx v s).txSum = s.txSum + v := rfl
@[simp] theorem csumAdd_tx_txLen (v : Byte) (s : State) : (csumAdd .tx v s).txLen = s.txLen := rfl
@[simp] theorem csumAdd_tx_txIdx (v : Byte) (s : State) : (csumAdd .tx v s).txIdx = s.txIdx := rfl
@[simp] theorem csumAdd_tx_txMark (v : Byte) (s : State) : (csumAdd .tx v s).txMark = s.txMark := rfl
@[simp] theorem csumAdd_tx_events (v : Byte) (s : State) : (csumAdd .tx v s).events = s.events := rfl
@[simp] theorem csumAdd_tx_storeRdata (v : Byte) (s : State) : (csumAdd .tx v s).storeRdata = s.storeRdata := rfl
@[simp] theorem csumAdd_tx_out (v : Byte) (s : State) : (csumAdd .tx v s).out = s.out := rfl
@[simp] theorem csumAdd_tx_params (v : Byte) (s : State) : (csumAdd .tx v s).params = s.params := rfl
@[simp] theorem csumAdd_tx_bufInit (v : Byte) (s : State) : (csumAdd .tx v s).bufInit = s.bufInit := rfl
@[simp] theorem csumAdd_tx_draws (v : Byte) (s : State) : (csumAdd .tx v s).draws = s.draws := rfl

/-! ### prime -/

@[simp] theorem prime_addr (m n : Byte) (s : State) : (prime m n s).addr = s.addr := rfl
@[simp] theorem prime_rxState (m n : Byte) (s : State) : (prime m n s).rxState = s.rxState := rfl
@[simp] theorem prime_rxEsc (m n : Byte) (s : State) : (prime m n s).rxEsc = s.rxEsc := rfl
@[simp] theorem prime_isSvc (m n : Byte) (s : State) : (prime m n s).isSvc = s.isSvc := rfl
@[simp] theorem prime_isGrp (m n : Byte) (s : State) : (prime m n s).isGrp = s.isGrp := rfl
@[simp] theorem prime_rxSum (m n : Byte) (s : State) : (prime m n s).rxSum = s.rxSum := rfl
@[simp] theorem prime_grpAddr (m n : Byte) (s : State) : (prime m n s).grpAddr = s.grpAddr := rfl
@[simp] theorem prime_rxLen (m n : Byte) (s : State) : (prime m n s).rxLen = s.rxLen := rfl
@[simp] theorem prime_rxIdx (m n : Byte) (s : State) : (prime m n s).rxIdx = s.rxIdx := rfl
@[simp] theorem prime_buf (m n : Byte) (s : State) : (prime m n s).buf = s.buf := rfl
@[simp] theorem prime_txState (m n : Byte) (s : State) : (prime m n s).txState = .sendStart := rfl
@[simp] theorem prime_txEsc (m n : Byte) (s : State) : (prime m n s).txEsc = false := rfl
@[simp] theorem prime_txSum (m n : Byte) (s : State) : (prime m n s).txSum = 0 := rfl
@[simp] theorem prime_txLen (m n : Byte) (s : State) : (prime m n s).txLen = n := rfl
@[simp] theorem prime_txIdx (m n : Byte) (s : State) : (prime m n s).txIdx = 0 := rfl
@[simp] theorem prime_txMark (m n : Byte) (s : State) : (prime m n s).txMark = m := rfl
@[simp] theorem prime_events (m n : Byte) (s : State) : (prime m n s).events = s.events := rfl
@[simp] theorem prime_storeRdata (m n : Byte) (s : State) : (prime m n s).storeRdata = s.storeRdata := rfl
@[simp] theorem prime_out (m n : Byte) (s : State) : (prime m n s).out = s.out := rfl
@[simp] theorem prime_params (m n : Byte) (s : State) : (prime m n s).params = s.params := rfl
@[simp] theorem prime_bufInit (m n : Byte) (s : State) : (prime m n s).bufInit = s.bufInit := rfl
@[simp] theorem prime_draws (m n : Byte) (s : State) : (prime m n s).draws = s.draws := rfl

/-! ### idleStep -/

@[simp] theorem idleStep_addr (s : State) : (idleStep s).addr = s.addr := rfl
@[simp] theorem idleStep_rxState (s : State) : (idleStep s).rxState = s.rxState := rfl
@[simp] theorem idleStep_rxEsc (s : State) : (idleStep s).rxEsc = s.rxEsc := rfl
@[simp] theorem idleStep_isSvc (s : State) : (idleStep s).isSvc = s.isSvc := rfl
@[simp] theorem idleStep_isGrp (s : State) : (idleStep s).isGrp = s.isGrp := rfl
@[simp] theorem idleStep_rxSum (s : State) : (idleStep s).rxSum = s.rxSum := rfl
@[simp] theorem idleStep_grpAddr (s : State) : (idleStep s).grpAddr = s.grpAddr := rfl
@[simp] theorem idleStep_rxLen (s : State) : (idleStep s).rxLen = s.rxLen := rfl
@[simp] theorem idleStep_rxIdx (s : State) : (idleStep s).rxIdx = s.rxIdx := rfl
@[simp] theorem idleStep_buf (s : State) : (idleStep s).buf = s.buf := rfl
@[simp] theorem idleStep_txState (s : State) : (idleStep s).txState = s.txState := rfl
@[simp] theorem idleStep_txEsc (s : State) : (idleStep s).txEsc = s.txEsc := rfl
@[simp] theorem idleStep_txSum (s : State) : (idleStep s).txSum = s.txSum := rfl
@[simp] theorem idleStep_txLen (s : State) : (idleStep s).txLen = s.txLen := rfl
@[simp] theorem idleStep_txIdx (s : State) : (idleStep s).txIdx = s.txIdx := rfl
@[simp] theorem idleStep_txMark (s : State) : (idleStep s).txMark = s.txMark := rfl
@[simp] theorem idleStep_events (s : State) : (idleStep s).events = s.events := rfl
@[simp] theorem idleStep_storeRdata (s : State) : (idleStep s).storeRdata = s.storeRdata := rfl
@[simp] theorem idleStep_out (s : State) : (idleStep s).out = {} := rfl
@[simp] theorem idleStep_params (s : State) : (idleStep s).params = s.params := rfl
@[simp] theorem idleStep_bufInit (s : State) : (idleStep s).bufInit = s.bufInit := rfl
@[simp] theorem idleStep_draws (s : State) : (idleStep s).draws = s.draws := rfl

/-! ### memWrite -/

@[simp] theorem memWrite_addr (i : Nat) (v : Byte) (s : State) : (memWrite i v s).addr = s.addr := by
  unfold memWrite; split <;> rfl
@[simp] theorem memWrite_rxState (i : Nat) (v : Byte) (s : State) : (memWrite i v s).rxState = s.rxState := by
  unfold memWrite; split <;> rfl
@[simp] theorem memWrite_rxEsc (i : Nat) (v : Byte) (s : State) : (memWrite i v s).rxEsc = s.rxEsc := by
  unfold memWrite; split <;> rfl
@[simp] theorem memWrite_isSvc (i : Nat) (v : Byte) (s : State) : (memWrite i v s).isSvc = s.isSvc := by
  unfold memWrite; split <;> rfl
@[simp] theorem memWrite_isGrp (i : Nat) (v : Byte) (s : State) : (memWrite i v s).isGrp = s.isGrp := by
  unfold memWrite; split <;> rfl
@[simp] theorem memWrite_rxSum (i : Nat) (v : Byte) (s : State) : (memWrite i v s).rxSum = s.rxSum := by
  unfold memWrite; split <;> rfl
@[simp] theorem memWrite_grpAddr (i : Nat) (v : Byte) (s : State) : (memWrite i v s).grpAddr = s.grpAddr := by
  unfold memWrite; split <;> rfl
@[simp] theorem memWrite_rxLen (i : Nat) (v : Byte) (s : State) : (memWrite i v s).rxLen = s.rxLen := by
  unfold memWrite; split <;> rfl
@[simp] theorem memWrite_rxIdx (i : Nat) (v : Byte) (s : State) : (memWrite i v s).rxIdx = s.rxIdx := by
  unfold memWrite; split <;> rfl
@[simp] theorem memWrite_txState (i : Nat) (v : Byte) (s : State) : (memWrite i v s).txState = s.txState := by
  unfold memWrite; split <;> rfl
@[simp] theorem memWrite_txEsc (i : Nat) (v : Byte) (s : State) : (memWrite i v s).txEsc = s.txEsc := by
  unfold memWrite; split <;> rfl
@[simp] theorem memWrite_txSum (i : Nat) (v : Byte) (s : State) : (memWrite i v s).txSum = s.txSum := by
  unfold memWrite; split <;> rfl
@[simp] theorem memWrite_txLen (i : Nat) (v : Byte) (s : State) : (memWrite i v s).txLen = s.txLen := by
  unfold memWrite; split <;> rfl
@[simp] theorem memWrite_txIdx (i : Nat) (v : Byte) (s : State) : (memWrite i v s).txIdx = s.txIdx := by
  unfold memWrite; split <;> rfl
@[simp] theorem memWrite_txMark (i : Nat) (v : Byte) (s : State) : (memWrite i v s).txMark = s.txMark := by
  unfold memWrite; split <;> rfl
@[simp] theorem memWrite_events (i : Nat) (v : Byte) (s : State) : (memWrite i v s).events = s.events := by
  unfold memWrite; split <;> rfl
@[simp] theorem memWrite_storeRdata (i : Nat) (v : Byte) (s : State) : (memWrite i v s).storeRdata = s.storeRdata := by
  unfold memWrite; split <;> rfl
@[simp] theorem memWrite_out (i : Nat) (v : Byte) (s : State) : (memWrite i v s).out = s.out := by
  unfold memWrite; split <;> rfl
@[simp] theorem memWrite_params (i : Nat) (v : Byte) (s : State) : (memWrite i v s).params = s.params := by
  unfold memWrite; split <;> rfl
@[simp] theorem memWrite_bufInit (i : Nat) (v : Byte) (s : State) : (memWrite i v s).bufInit = s.bufInit := by
  unfold memWrite; split <;> rfl
@[simp] theorem memWrite_draws (i : Nat) (v : Byte) (s : State) : (memWrite i v s).draws = s.draws := by
  unfold memWrite; split <;> rfl

/-! ### memWriteList -/

@[simp] theorem memWriteList_addr (bs : List Byte) (i : Nat) (s : State) : (memWriteList bs i s).addr = s.addr := by
  induction bs generalizing i s with
  | nil => rfl
  | cons b bs ih => rw [memWriteList, ih, memWrite_addr]
@[simp] theorem memWriteList_rxState (bs : List Byte) (i : Nat) (s : State) : (memWriteList bs i s).rxState = s.rxState := by
  induction bs generalizing i s with
  | nil => rfl
  | cons b bs ih => rw [memWriteList, ih, memWrite_rxState]
@[simp] theorem memWriteList_rxEsc (bs : List Byte) (i : Nat) (s : State) : (memWriteList bs i s).rxEsc = s.rxEsc := by
  induction bs generalizing i s with
  | nil => rfl
  | cons b bs ih => rw [memWriteList, ih, memWrite_rxEsc]
@[simp] theorem memWriteList_isSvc (bs : List Byte) (i : Nat) (s : State) : (memWriteList bs i s).isSvc = s.isSvc := by
  induction bs generalizing i s with
  | nil => rfl
  | cons b bs ih => rw [memWriteList, ih, memWrite_isSvc]
@[simp] theorem memWriteList_isGrp (bs : List Byte) (i : Nat) (s : State) : (memWriteList bs i s).isGrp = s.isGrp := by
  induction bs generalizing i s with
  | nil => rfl
  | cons b bs ih => rw [memWriteList, ih, memWrite_isGrp]
@[simp] theorem memWriteList_rxSum (bs : List Byte) (i : Nat) (s : State) : (memWriteList bs i s).rxSum = s.rxSum := by
  induction bs generalizing i s with
  | nil => rfl
  | cons b bs ih => rw [memWriteList, ih, memWrite_rxSum]
@[simp] theorem memWriteList_grpAddr (bs : List Byte) (i : Nat) (s : State) : (memWriteList bs i s).grpAddr = s.grpAddr := by
  induction bs generalizing i s with
  | nil => rfl
  | cons b bs ih => rw [memWriteList, ih, memWrite_grpAddr]
@[simp] theorem memWriteList_rxLen (bs : List Byte) (i : Nat) (s : State) : (memWriteList bs i s).rxLen = s.rxLen := by
  induction bs generalizing i s with
  | nil => rfl
  | cons b bs ih => rw [memWriteList, ih, memWrite_rxLen]
@[simp] theorem memWriteList_rxIdx (bs : List Byte) (i : Nat) (s : State) : (memWriteList bs i s).rxIdx = s.rxIdx := by
  induction bs generalizing i s with
  | nil => rfl
  | cons b bs ih => rw [memWriteList, ih, memWrite_rxIdx]
@[simp] theorem memWriteList_txState (bs : List Byte) (i : Nat) (s : State) : (memWriteList bs i s).txState = s.txState := by
  induction bs generalizing i s with
  | nil => rfl
  | cons b bs ih => rw [memWriteList, ih, memWrite_txState]
@[simp] theorem memWriteList_txEsc (bs : List Byte) (i : Nat) (s : State) : (memWriteList bs i s).txEsc = s.txEsc := by
  induction bs generalizing i s with
  | nil => rfl
  | cons b bs ih => rw [memWriteList, ih, memWrite_txEsc]
@[simp] theorem memWriteList_txSum (bs : List Byte) (i : Nat) (s : State) : (memWriteList bs i s).txSum = s.txSum := by
  induction bs generalizing i s with
  | nil => rfl
  | cons b bs ih => rw [memWriteList, ih, memWrite_txSum]
@[simp] theorem memWriteList_txLen (bs : List Byte) (i : Nat) (s : State) : (memWriteList bs i s).txLen = s.txLen := by
  induction bs generalizing i s with
  | nil => rfl
  | cons b bs ih => rw [memWriteList, ih, memWrite_txLen]
@[simp] theorem memWriteList_txIdx (bs : List Byte) (i : Nat) (s : State) : (memWriteList bs i s).txIdx = s.txIdx := by
  induction bs generalizing i s with
  | nil => rfl
  | cons b bs ih => rw [memWriteList, ih, memWrite_txIdx]
@[simp] theorem memWriteList_txMark (bs : List Byte) (i : Nat) (s : State) : (memWriteList bs i s).txMark = s.txMark := by
  induction bs generalizing i s with
  | nil => rfl
  | cons b bs ih => rw [memWriteList, ih, memWrite_txMark]
@[simp] theorem memWriteList_events (bs : List Byte) (i : Nat) (s : State) : (memWriteList bs i s).events = s.events := by
  induction bs generalizing i s with
  | nil => rfl
  | cons b bs ih => rw [memWriteList, ih, memWrite_events]
@[simp] theorem memWriteList_storeRdata (bs : List Byte) (i : Nat) (s : State) : (memWriteList bs i s).storeRdata = s.storeRdata := by
  induction bs generalizing i s with
  | nil => rfl
  | cons b bs ih => rw [memWriteList, ih, memWrite_storeRdata]
@[simp] theorem memWriteList_out (bs : List Byte) (i : Nat) (s : State) : (memWriteList bs i s).out = s.out := by
  induction bs generalizing i s with
  | nil => rfl
  | cons b bs ih => rw [memWriteList, ih, memWrite_out]
@[simp] theorem memWriteList_params (bs : List Byte) (i : Nat) (s : State) : (memWriteList bs i s).params = s.params := by
  induction bs generalizing i s with
  | nil => rfl
  | cons b bs ih => rw [memWriteList, ih, memWrite_params]
@[simp] theorem memWriteList_bufInit (bs : List Byte) (i : Nat) (s : State) : (memWriteList bs i s).bufInit = s.bufInit := by
  induction bs generalizing i s with
  | nil => rfl
  | cons b bs ih => rw [memWriteList, ih, memWrite_bufInit]
@[simp] theorem memWriteList_draws (bs : List Byte) (i : Nat) (s : State) : (memWriteList bs i s).draws = s.draws := by
  induction bs generalizing i s with
  | nil => rfl
  | cons b bs ih => rw [memWriteList, ih, memWrite_draws]

/-! ### The register groups -/

@[simp] theorem label_rxRegs (r : Label) (s : State) : (label r s).rxRegs = s.rxRegs := rfl
@[simp] theorem label_txRegs (r : Label) (s : State) : (label r s).txRegs = s.txRegs := rfl
@[simp] theorem discard_txRegs (r : Label) (s : State) : (discard r s).txRegs = s.txRegs := rfl
@[simp] theorem emit_rxRegs (b : Byte) (s : State) : (emit b s).rxRegs = s.rxRegs := rfl
@[simp] theorem emit_txRegs (b : Byte) (s : State) : (emit b s).txRegs = s.txRegs := rfl
@[simp] theorem persist_rxRegs (b : Byte) (s : State) : (persist b s).rxRegs = s.rxRegs := rfl
@[simp] theorem persist_txRegs (b : Byte) (s : State) : (persist b s).txRegs = s.txRegs := rfl
@[simp] theorem strobeHandler_rxRegs (p : List Byte) (s : State) : (strobeHandler p s).rxRegs = s.rxRegs := rfl
@[simp] theorem strobeHandler_txRegs (p : List Byte) (s : State) : (strobeHandler p s).txRegs = s.txRegs := rfl
@[simp] theorem returnValue_rxRegs (r : PrimResult) (s : State) : (returnValue r s).rxRegs = s.rxRegs := rfl
@[simp] theorem returnValue_txRegs (r : PrimResult) (s : State) : (returnValue r s).txRegs = s.txRegs := rfl
@[simp] theorem setFrameKind_txRegs (m : Marker) (s : State) : (setFrameKind m s).txRegs = s.txRegs := rfl
@[simp] theorem setAccum_rx_txRegs (x : Byte) (s : State) : (setAccum .rx x s).txRegs = s.txRegs := rfl
@[simp] theorem setAccum_tx_rxRegs (x : Byte) (s : State) : (setAccum .tx x s).rxRegs = s.rxRegs := rfl
@[simp] theorem csumInit_rx_txRegs (s : State) : (csumInit .rx s).txRegs = s.txRegs := rfl
@[simp] theorem csumInit_tx_rxRegs (s : State) : (csumInit .tx s).rxRegs = s.rxRegs := rfl
@[simp] theorem csumAdd_rx_txRegs (v : Byte) (s : State) : (csumAdd .rx v s).txRegs = s.txRegs := rfl
@[simp] theorem csumAdd_tx_rxRegs (v : Byte) (s : State) : (csumAdd .tx v s).rxRegs = s.rxRegs := rfl
@[simp] theorem prime_rxRegs (m n : Byte) (s : State) : (prime m n s).rxRegs = s.rxRegs := rfl
@[simp] theorem idleStep_rxRegs (s : State) : (idleStep s).rxRegs = s.rxRegs := rfl
@[simp] theorem idleStep_txRegs (s : State) : (idleStep s).txRegs = s.txRegs := rfl
@[simp] theorem memWrite_rxRegs (i : Nat) (v : Byte) (s : State) : (memWrite i v s).rxRegs = s.rxRegs := by
  simp [State.rxRegs]
@[simp] theorem memWrite_txRegs (i : Nat) (v : Byte) (s : State) : (memWrite i v s).txRegs = s.txRegs := by
  simp [State.txRegs]
@[simp] theorem memWriteList_rxRegs (bs : List Byte) (i : Nat) (s : State) : (memWriteList bs i s).rxRegs = s.rxRegs := by
  simp [State.rxRegs]
@[simp] theorem memWriteList_txRegs (bs : List Byte) (i : Nat) (s : State) : (memWriteList bs i s).txRegs = s.txRegs := by
  simp [State.txRegs]
@[simp] theorem prime_txRegs (m n : Byte) (s : State) : (prime m n s).txRegs = primedRegs m n := rfl

/-! ### The buffer byte under updates that leave the buffer alone -/

/-- A state with the same cells and the same reset draw has the same buffer. -/
theorem bufByte_congr (s t : State) (hb : t.buf = s.buf) (hi : t.bufInit = s.bufInit) (i : Nat) :
    t.bufByte i = s.bufByte i := by
  simp [State.bufByte, hb, hi]

@[simp] theorem label_bufByte (r : Label) (s : State) (i : Nat) : (label r s).bufByte i = s.bufByte i := rfl
@[simp] theorem discard_bufByte (r : Label) (s : State) (i : Nat) : (discard r s).bufByte i = s.bufByte i := rfl
@[simp] theorem emit_bufByte (b : Byte) (s : State) (i : Nat) : (emit b s).bufByte i = s.bufByte i := rfl
@[simp] theorem persist_bufByte (b : Byte) (s : State) (i : Nat) : (persist b s).bufByte i = s.bufByte i := rfl
@[simp] theorem strobeHandler_bufByte (p : List Byte) (s : State) (i : Nat) : (strobeHandler p s).bufByte i = s.bufByte i := rfl
@[simp] theorem returnValue_bufByte (r : PrimResult) (s : State) (i : Nat) : (returnValue r s).bufByte i = s.bufByte i := rfl
@[simp] theorem setFrameKind_bufByte (m : Marker) (s : State) (i : Nat) : (setFrameKind m s).bufByte i = s.bufByte i := rfl
@[simp] theorem setAccum_rx_bufByte (x : Byte) (s : State) (i : Nat) : (setAccum .rx x s).bufByte i = s.bufByte i := rfl
@[simp] theorem setAccum_tx_bufByte (x : Byte) (s : State) (i : Nat) : (setAccum .tx x s).bufByte i = s.bufByte i := rfl
@[simp] theorem csumInit_rx_bufByte (s : State) (i : Nat) : (csumInit .rx s).bufByte i = s.bufByte i := rfl
@[simp] theorem csumInit_tx_bufByte (s : State) (i : Nat) : (csumInit .tx s).bufByte i = s.bufByte i := rfl
@[simp] theorem csumAdd_rx_bufByte (v : Byte) (s : State) (i : Nat) : (csumAdd .rx v s).bufByte i = s.bufByte i := rfl
@[simp] theorem csumAdd_tx_bufByte (v : Byte) (s : State) (i : Nat) : (csumAdd .tx v s).bufByte i = s.bufByte i := rfl
@[simp] theorem prime_bufByte (m n : Byte) (s : State) (i : Nat) : (prime m n s).bufByte i = s.bufByte i := rfl
@[simp] theorem idleStep_bufByte (s : State) (i : Nat) : (idleStep s).bufByte i = s.bufByte i := rfl

end Sys2Proof.Machine
end

