-- ==== Sys2Proof/Laws/Memory.lean ====
section
/-! SUPPORT. The buffer: a read after a write, and that every buffer operation keeps the canonical form
(20_memory.md R52, R53, R60). -/

namespace Sys2Proof.Machine

variable {init : List Byte} {cap : Nat}

/-- A list in canonical form from `lo` on is so from any lower bound on. -/
theorem cellsWf_mono {m : List Host.Cell} {lo lo' : Nat} (h : lo ≤ lo') (hw : cellsWf init cap lo' m = true) :
    cellsWf init cap lo m = true := by
  cases m with
  | nil => rfl
  | cons c m =>
    simp only [cellsWf, Bool.and_eq_true, decide_eq_true_eq] at hw ⊢
    exact ⟨⟨⟨by omega, hw.1.1.2⟩, hw.1.2⟩, hw.2⟩

/-- Below its lower bound a canonical list has no entry. -/
theorem bufLookup_below {m : List Host.Cell} {lo i : Nat} (hw : cellsWf init cap lo m = true) (h : i < lo) :
    bufLookup m i = none := by
  induction m generalizing lo with
  | nil => rfl
  | cons c m ih =>
    obtain ⟨a, b⟩ := c
    simp only [cellsWf, Bool.and_eq_true, decide_eq_true_eq] at hw
    rw [bufLookup, if_neg (by omega)]
    exact ih hw.2 (by omega)

/-- Inserting keeps the canonical form. -/
theorem cellsWf_bufInsert {m : List Host.Cell} {lo i : Nat} {v : Byte} (hw : cellsWf init cap lo m = true)
    (hl : lo ≤ i) (hc : i < cap) : cellsWf init cap lo (bufInsert (unlistedByte init i) m i v) = true := by
  induction m generalizing lo with
  | nil =>
    simp only [bufInsert]
    split
    · rfl
    · simp [cellsWf, *]
  | cons c m ih =>
    obtain ⟨a, b⟩ := c
    simp only [cellsWf, Bool.and_eq_true, decide_eq_true_eq] at hw
    obtain ⟨⟨⟨h1, h2⟩, h3⟩, h4⟩ := hw
    simp only [bufInsert]
    split
    · simp only [cellsWf, Bool.and_eq_true, decide_eq_true_eq]
      exact ⟨⟨⟨h1, h2⟩, h3⟩, ih h4 (by omega)⟩
    · split
      · split
        · exact cellsWf_mono (by omega) h4
        · subst_vars
          simp only [cellsWf, Bool.and_eq_true, decide_eq_true_eq]
          exact ⟨⟨⟨hl, hc⟩, by assumption⟩, h4⟩
      · split
        · simp only [cellsWf, Bool.and_eq_true, decide_eq_true_eq]
          exact ⟨⟨⟨h1, h2⟩, h3⟩, h4⟩
        · simp only [cellsWf, Bool.and_eq_true, decide_eq_true_eq]
          exact ⟨⟨⟨hl, hc⟩, by assumption⟩, ⟨⟨⟨by omega, h2⟩, h3⟩, h4⟩⟩

/-- Reading the index just written. -/
theorem bufLookup_bufInsert_same {m : List Host.Cell} {lo i : Nat} {v d : Byte} (hw : cellsWf init cap lo m = true) :
    (bufLookup (bufInsert d m i v) i).getD d = v := by
  induction m generalizing lo with
  | nil =>
    simp only [bufInsert]
    split <;> simp [bufLookup, *]
  | cons c m ih =>
    obtain ⟨a, b⟩ := c
    simp only [cellsWf, Bool.and_eq_true, decide_eq_true_eq] at hw
    simp only [bufInsert]
    split
    · rw [bufLookup, if_neg (by omega)]
      exact ih hw.2
    · split
      · split
        · subst_vars
          rw [bufLookup_below hw.2 (by omega)]; rfl
        · simp [bufLookup]
      · split
        · rw [bufLookup, if_neg (by omega), bufLookup_below hw.2 (by omega)]
          simp [*]
        · simp [bufLookup]

/-- Reading any other index. -/
theorem bufLookup_bufInsert_other {m : List Host.Cell} {i j : Nat} {v d : Byte} (h : j ≠ i) :
    bufLookup (bufInsert d m i v) j = bufLookup m j := by
  induction m with
  | nil =>
    simp only [bufInsert]
    split
    · rfl
    · simp [bufLookup, Ne.symm h]
  | cons c m ih =>
    obtain ⟨a, b⟩ := c
    simp only [bufInsert]
    split
    · simp only [bufLookup, ih]
    · split
      · split
        · rw [bufLookup, if_neg (by omega)]
        · simp only [bufLookup]
          rw [if_neg (by omega), if_neg (by omega)]
      · split
        · rfl
        · rw [bufLookup, if_neg (Ne.symm h)]

/-- A written byte reads back (R52, R53). -/
theorem memWrite_bufByte_same {s : State} {i : Nat} {v : Byte} (hw : Memory.wf s = true) (hc : i < s.params.bufCap) :
    (memWrite i v s).bufByte i = v := by
  simp only [memWrite, if_pos hc, State.bufByte]
  exact bufLookup_bufInsert_same hw

/-- A write leaves every other byte alone (R53). -/
theorem memWrite_bufByte_other {s : State} {i j : Nat} {v : Byte} (h : j ≠ i) :
    (memWrite i v s).bufByte j = s.bufByte j := by
  unfold memWrite
  split
  · simp only [State.bufByte, bufLookup_bufInsert_other h]
  · rfl

/-- A write at or above BUF_CAP has no effect (R53). -/
theorem memWrite_outOfRange {s : State} {i : Nat} {v : Byte} (h : ¬i < s.params.bufCap) : memWrite i v s = s := by
  rw [memWrite, if_neg h]

/-- A write keeps the canonical form. -/
theorem memWrite_wf {s : State} {i : Nat} {v : Byte} (hw : Memory.wf s = true) : Memory.wf (memWrite i v s) = true := by
  unfold memWrite
  split
  · exact cellsWf_bufInsert hw (Nat.zero_le _) (by assumption)
  · exact hw

/-- Writing a list keeps the canonical form. -/
theorem memWriteList_wf {bs : List Byte} {i : Nat} {s : State} (hw : Memory.wf s = true) :
    Memory.wf (memWriteList bs i s) = true := by
  induction bs generalizing i s with
  | nil => exact hw
  | cons b bs ih => exact ih (memWrite_wf hw)

/-- Everything writing a list in range does to the buffer. -/
theorem memWriteList_bufByte {bs : List Byte} {i : Nat} {s : State} (hw : Memory.wf s = true)
    (hc : i + bs.length ≤ s.params.bufCap) (j : Nat) :
    (memWriteList bs i s).bufByte j = if h : i ≤ j ∧ j - i < bs.length then bs[j - i]'h.2 else s.bufByte j := by
  induction bs generalizing i s with
  | nil => simp [memWriteList]
  | cons b bs ih =>
    simp only [List.length_cons] at hc
    rw [memWriteList, ih (memWrite_wf hw) (by simp; omega)]
    by_cases hij : j = i
    · subst hij
      rw [dif_neg (by omega), dif_pos (by simp), memWrite_bufByte_same hw (by omega)]
      simp
    · rw [memWrite_bufByte_other hij]
      by_cases hr : i + 1 ≤ j ∧ j - (i + 1) < bs.length
      · rw [dif_pos hr, dif_pos ⟨by omega, by simp; omega⟩]
        have : j - i = (j - (i + 1)) + 1 := by omega
        simp [this]
      · rw [dif_neg hr, dif_neg (by simp; omega)]

/-- A read in range: the byte, and no state change (R52, R58). -/
theorem memRead_inRange {s : State} {i : Nat} (h : i < s.params.bufCap) : memRead i s = (s.bufByte i, s) := by
  rw [memRead, if_pos h]

/-- Everything a read can do to the state: only the draw counter may move (R52). -/
theorem memRead_state (s : State) (i : Nat) :
    (memRead i s).2 = s ∨ (memRead i s).2 = { s with draws := s.draws + 1 } := by
  unfold memRead
  split
  · exact .inl rfl
  · exact .inr rfl

/-- Reading a list in range. -/
theorem memReadList_inRange {n i : Nat} {s : State} (h : i + n ≤ s.params.bufCap) :
    memReadList n i s = ((List.range' i n).map s.bufByte, s) := by
  induction n generalizing i with
  | zero => rfl
  | succ n ih =>
    rw [memReadList, memRead_inRange (by omega)]
    simp only [ih (i := i + 1) (by omega), List.range'_succ, List.map_cons]

/-- Reading a list leaves the canonical form. -/
theorem memRead_wf {s : State} {i : Nat} (hw : Memory.wf s = true) : Memory.wf (memRead i s).2 = true := by
  rcases memRead_state s i with h | h <;> rw [h] <;> exact hw

/-- Everything reading a list can do to the state: only the draw counter may move. -/
theorem memReadList_state (n i : Nat) (s : State) : ∃ k, (memReadList n i s).2 = { s with draws := k } := by
  induction n generalizing i s with
  | zero => exact ⟨s.draws, rfl⟩
  | succ n ih =>
    obtain ⟨k, hk⟩ := ih (i + 1) (memRead i s).2
    refine ⟨k, ?_⟩
    simp only [memReadList, hk]
    rcases memRead_state s i with h | h <;> rw [h]

/-- The canonical form is not empty: the state right after reset has it. -/
theorem resetWith_wf (p : Params) (a : Byte) : Memory.wf (State.resetWith p a) = true := rfl

/-- Two canonical buffers over the same draw that read alike are the same data. -/
theorem cells_ext {m m' : List Host.Cell} {lo : Nat} (h : cellsWf init cap lo m = true)
    (h' : cellsWf init cap lo m' = true)
    (he : ∀ i, (bufLookup m i).getD (unlistedByte init i) = (bufLookup m' i).getD (unlistedByte init i)) : m = m' := by
  induction m generalizing lo m' with
  | nil =>
    cases m' with
    | nil => rfl
    | cons c m' =>
      obtain ⟨a, b⟩ := c
      simp only [cellsWf, Bool.and_eq_true, decide_eq_true_eq] at h'
      have := he a
      simp [bufLookup] at this
      exact absurd this.symm h'.1.2
  | cons c m ih =>
    obtain ⟨a, b⟩ := c
    have hw := h
    simp only [cellsWf, Bool.and_eq_true, decide_eq_true_eq] at h
    cases m' with
    | nil =>
      have := he a
      simp [bufLookup] at this
      exact absurd this h.1.2
    | cons c' m' =>
      obtain ⟨a', b'⟩ := c'
      simp only [cellsWf, Bool.and_eq_true, decide_eq_true_eq] at h'
      have haa : a = a' := by
        rcases Nat.lt_trichotomy a a' with hlt | heq | hgt
        · have := he a
          rw [bufLookup, if_pos rfl, bufLookup, if_neg (by omega), bufLookup_below h'.2 (by omega)] at this
          exact absurd this h.1.2
        · exact heq
        · have := he a'
          rw [bufLookup, if_neg (by omega), bufLookup_below h.2 (by omega), bufLookup, if_pos rfl] at this
          exact absurd this.symm h'.1.2
      subst haa
      have hb : b = b' := by simpa [bufLookup] using he a
      subst hb
      rw [ih h.2 h'.2]
      intro i
      by_cases hi : a = i
      · subst hi
        rw [bufLookup_below h.2 (by omega), bufLookup_below h'.2 (by omega)]
      · simpa [bufLookup, hi] using he i

end Sys2Proof.Machine
end

