-- ==== Sys2Proof/Laws/Ops.lean ====
section
/-! SUPPORT. For each shared operation one lemma that says everything it can do, and one lemma per event kind that says
what a step runs. Later proofs cite these instead of unfolding the operations. -/

namespace Sys2Proof

/-- The ranges of 00_scope.md R8, one by one. -/
theorem params_wf_iff (p : Params) : p.wf = true ↔
    4 ≤ p.bufCap ∧ p.bufCap ≤ 255 ∧ p.inCap ≤ p.bufCap ∧ p.outCap ≤ p.bufCap ∧ p.svcEcho ≠ p.svcDescribe ∧
    p.svcEcho ≠ p.svcChangeAddr ∧ p.svcDescribe ≠ p.svcChangeAddr ∧
    ∀ row ∈ p.handler, ∃ r, row.2 = some r ∧ r.length = p.outCap := by
  simp [Params.wf, Option.any_eq_true, and_assoc]

/-! ### The codec and the decoder -/

@[simp] theorem evWord_kind (k : BitVec 2) (b : Byte) : (evWord k b).kind = k := by revert k b; decide
@[simp] theorem evWord_byte (k : BitVec 2) (b : Byte) : (evWord k b).byte = b := by revert k b; decide
@[simp] theorem rxWord_kind (b : Byte) : (rxWord b).kind = KIND_RX := evWord_kind _ _
@[simp] theorem rxWord_byte (b : Byte) : (rxWord b).byte = b := evWord_byte _ _
@[simp] theorem tickWord_kind : tickWord.kind = KIND_TICK := evWord_kind _ _

/-- The four kinds of an event word (30_encoding.md R70). -/
theorem kind_cases (k : BitVec 2) : k = KIND_RX ∨ k = KIND_TICK ∨ k = KIND_RESET ∨ k = 0b11 := by revert k; decide

/-- The reply bit is bit 7 (30_encoding.md R76). -/
theorem hasReplyBit_eq (v : Byte) : hasReplyBit v = v.msb := by revert v; decide

/-- The escape flag after DECODE (40_codec.md R101). -/
theorem decodeByte_flag (e : Bool) (b : Byte) : (decodeByte e b).2 = decide (e = false ∧ b = ESC) := by
  revert e b; decide

/-- The wire byte of a data value decodes to the value. -/
theorem decodeByte_wireByte {e : Bool} {v : Byte} (h : dataClass e v = true) :
    decodeByte e (wireByte e v) = (.data v, false) := by revert e v; decide

/-- The two forms of a logical byte on the wire (40_codec.md R102). -/
theorem enc_cases (x : Byte) :
    (x ≤ MK_MAX ∧ enc x = [ESC, x + SHIFT] ∧ decodeByte false ESC = (.esc, true) ∧
      decodeByte true (x + SHIFT) = (.data x, false)) ∨
    (MK_MAX < x ∧ enc x = [x] ∧ decodeByte false x = (.data x, false)) := by
  revert x; decide

/-- Everything a received byte can be (30_encoding.md R72). -/
theorem decodeRx_cases (c : Ctx) (b : Byte) :
    (c.rxEsc = false ∧ b = ESC ∧ decodeRx c b = .rxEsc) ∨
    (c.rxEsc = false ∧ b = MK_SVC ∧ decodeRx c b = .rxMarkSvc) ∨
    (c.rxEsc = false ∧ b = MK_REG ∧ decodeRx c b = .rxMarkReg) ∨
    (c.rxEsc = false ∧ b = MK_GRP ∧ decodeRx c b = .rxMarkGrp) ∨
    ∃ v, decodeByte c.rxEsc b = (.data v, false) ∧ decodeRx c b = classifyData c v := by
  unfold decodeRx
  cases h : c.rxEsc
  · by_cases h0 : b = ESC
    · subst h0; simp [decodeByte]
    · by_cases h1 : b = MK_SVC
      · subst h1; simp [decodeByte, ESC, MK_SVC]
      · by_cases h2 : b = MK_REG
        · subst h2; simp [decodeByte, ESC, MK_SVC, MK_REG]
        · by_cases h3 : b = MK_GRP
          · subst h3; simp [decodeByte, ESC, MK_SVC, MK_REG, MK_GRP]
          · simp [decodeByte, h0, h1, h2, h3]
  · exact .inr (.inr (.inr (.inr ⟨_, rfl, rfl⟩)))

/-- The sum of a byte list is the library's (41_checksum.md R111). -/
theorem byteSum_eq (xs : List Byte) : byteSum xs = xs.sum := by
  have h : ∀ a : Byte, xs.foldl (· + ·) a = a + xs.sum := by
    induction xs with
    | nil => intro a; simp
    | cons x xs ih => intro a; rw [List.foldl_cons, ih, List.sum_cons, add_assoc]
  rw [byteSum, h]; exact zero_add _

end Sys2Proof

namespace Sys2Proof.Machine

/-! ### Taking an event -/

/-- Everything taking an event word changes: the port, the output record and, for a received byte, `rxEsc`. -/
theorem arrive_eq (w : EvWord) (rest : List EvWord) (s : State) :
    arrive w rest s = { s with
      events := rest, out := {},
      rxEsc := if w.kind = KIND_RX then decide (s.rxEsc = false ∧ w.byte = ESC) else s.rxEsc } := by
  unfold arrive
  split <;> simp [decodeStep, decodeByte_flag]

@[simp] theorem arrive_bufByte (w : EvWord) (rest : List EvWord) (s : State) (i : Nat) :
    (arrive w rest s).bufByte i = s.bufByte i := by rw [arrive_eq]; rfl
@[simp] theorem arrive_txRegs (w : EvWord) (rest : List EvWord) (s : State) :
    (arrive w rest s).txRegs = s.txRegs := by rw [arrive_eq]; rfl
@[simp] theorem arrive_addr (w : EvWord) (rest : List EvWord) (s : State) :
    (arrive w rest s).addr = s.addr := by rw [arrive_eq]
@[simp] theorem arrive_params (w : EvWord) (rest : List EvWord) (s : State) :
    (arrive w rest s).params = s.params := by rw [arrive_eq]
@[simp] theorem arrive_events (w : EvWord) (rest : List EvWord) (s : State) :
    (arrive w rest s).events = rest := by rw [arrive_eq]
@[simp] theorem arrive_out (w : EvWord) (rest : List EvWord) (s : State) : (arrive w rest s).out = {} := by rw [arrive_eq]
@[simp] theorem arrive_storeRdata (w : EvWord) (rest : List EvWord) (s : State) :
    (arrive w rest s).storeRdata = s.storeRdata := by rw [arrive_eq]
@[simp] theorem arrive_draws (w : EvWord) (rest : List EvWord) (s : State) :
    (arrive w rest s).draws = s.draws := by rw [arrive_eq]

/-- A step on a received byte runs its receive class. -/
theorem step_rx {s : State} {w : EvWord} {rest : List EvWord} (he : s.events = w :: rest) (hk : w.kind = KIND_RX) :
    step s = exec (decodeRx s.ctx w.byte) (arrive w rest s) := by
  have hd : decode (.ev s.ctx) w = .ok (decodeRx s.ctx w.byte) := if_pos hk
  simp only [step, he, hd]

/-- A step on a tick runs its tick class. -/
theorem step_tick {s : State} {w : EvWord} {rest : List EvWord} (he : s.events = w :: rest)
    (hk : w.kind = KIND_TICK) : step s = exec (decodeTick s.ctx) (arrive w rest s) := by
  have hd : decode (.ev s.ctx) w = .ok (decodeTick s.ctx) := by simp [decode, hk, KIND_RX, KIND_TICK]
  simp only [step, he, hd]

/-- A step on a reset word runs the Reset event. -/
theorem step_reset {s : State} {w : EvWord} {rest : List EvWord} (he : s.events = w :: rest)
    (hk : w.kind = KIND_RESET) : step s = exec .reset (arrive w rest s) := by
  have hd : decode (.ev s.ctx) w = .ok .reset := by simp [decode, hk, KIND_RX, KIND_TICK, KIND_RESET]
  simp only [step, he, hd]

/-! ### Sending one byte -/

/-- Everything TxByte can do to the transmit registers (40_codec.md R100, 43_tx.md R153). -/
theorem txByte_cases (v : Byte) (addSum : Bool) (s : State) :
    (txByte v addSum s).1 = true ∧ (s.txEsc = true ∨ ¬v ≤ MK_MAX) ∧
      (txByte v addSum s).2.txRegs =
        { s.txRegs with txEsc := false, txSum := if addSum then s.txSum + v else s.txSum } ∨
    (txByte v addSum s).1 = false ∧ s.txEsc = false ∧ v ≤ MK_MAX ∧
      (txByte v addSum s).2.txRegs = { s.txRegs with txEsc := true } := by
  unfold txByte encodeStep
  by_cases h : s.txEsc = true
  · left; rw [if_pos h]; refine ⟨rfl, .inl h, ?_⟩; cases addSum <;> rfl
  · rw [if_neg h]
    by_cases h2 : v ≤ MK_MAX
    · right; rw [if_pos h2]; exact ⟨rfl, by simpa using h, h2, rfl⟩
    · left; rw [if_neg h2]; refine ⟨rfl, .inr h2, ?_⟩
      cases addSum <;> simp [State.txRegs, h]

/-! ### Reading operands -/

/-- Everything a read can change: the draw counter (20_memory.md R52). -/
theorem memRead_draws (i : Nat) (s : State) : ∃ k, (memRead i s).2 = { s with draws := k } := by
  rcases memRead_state s i with h | h
  · exact ⟨s.draws, by rw [h]⟩
  · exact ⟨_, h⟩

/-- Everything reading the ChangeAddress parameters can change. -/
theorem changeAddrOperands_draws (s : State) :
    ∃ n e x k, changeAddrOperands s = ((n, e, x), { s with draws := k }) := by
  unfold changeAddrOperands
  obtain ⟨k1, h1⟩ := memRead_draws 1 s
  obtain ⟨k2, h2⟩ := memRead_draws 2 (memRead 1 s).2
  obtain ⟨k3, h3⟩ := memRead_draws 3 (memRead 2 (memRead 1 s).2).2
  refine ⟨(memRead 1 s).1, (memRead 2 (memRead 1 s).2).1, (memRead 3 (memRead 2 (memRead 1 s).2).2).1, k3, ?_⟩
  dsimp only
  rw [h3, h2, h1]

/-- With four bytes of buffer the ChangeAddress parameters are its bytes 1 to 3 and nothing changes. -/
theorem changeAddrOperands_inRange {s : State} (h4 : 4 ≤ s.params.bufCap) :
    changeAddrOperands s = ((s.bufByte 1, s.bufByte 2, s.bufByte 3), s) := by
  simp only [changeAddrOperands, memRead_inRange (show 1 < s.params.bufCap by omega),
    memRead_inRange (show 2 < s.params.bufCap by omega), memRead_inRange (show 3 < s.params.bufCap by omega)]

/-! ### The sub-command codes (44_dispatch.md R173) -/

@[simp] theorem subCommand_svcEcho (p : Params) : subCommand p p.svcEcho = .echo := if_pos rfl

theorem subCommand_svcDescribe {p : Params} (hp : p.wf = true) : subCommand p p.svcDescribe = .describe := by
  obtain ⟨-, -, -, -, h, -⟩ := (params_wf_iff p).1 hp
  simp [subCommand, h.symm]

theorem subCommand_svcChangeAddr {p : Params} (hp : p.wf = true) : subCommand p p.svcChangeAddr = .changeAddr := by
  obtain ⟨-, -, -, -, -, h, h', -⟩ := (params_wf_iff p).1 hp
  simp [subCommand, h.symm, h'.symm]

theorem subCommand_unknown {p : Params} {b : Byte} (h : b ≠ p.svcEcho) (h' : b ≠ p.svcDescribe)
    (h'' : b ≠ p.svcChangeAddr) : subCommand p b = .unknown := by
  simp [subCommand, h, h', h'']

/-! ### The handler and the dispatch -/

/-- The handler call when the handler keeps its contract (44_dispatch.md R171, R178). -/
theorem callHandler_eq {s : State} {r : List Byte} (hin : s.params.inCap ≤ s.params.bufCap)
    (ha : handlerAnswer s.params (handlerInput s) = some r) (hl : r.length = s.params.outCap) :
    callHandler s = .next (memWriteList r 0 (strobeHandler (handlerInput s) s)) := by
  unfold callHandler
  rw [memReadList_inRange (by omega)]
  have h : (List.range' 0 s.params.inCap).map s.bufByte = handlerInput s := by
    rw [handlerInput, List.range_eq_range']
  simp only [h, ha, hl, if_true]

/-- Everything a handler call that goes on can do. -/
theorem callHandler_cases {s t : State} (h : callHandler s = .next t) :
    ∃ p r k, handlerAnswer s.params p = some r ∧ r.length = s.params.outCap ∧
      t = memWriteList r 0 (strobeHandler p { s with draws := k }) := by
  unfold callHandler at h
  obtain ⟨k, hk⟩ := memReadList_state s.params.inCap 0 s
  dsimp only at h
  rw [hk] at h
  generalize (memReadList s.params.inCap 0 s).1 = p at h
  cases ha : handlerAnswer s.params p with
  | none => rw [ha] at h; simp at h
  | some r =>
    rw [ha] at h; dsimp only at h
    split at h
    · rename_i hl
      injection h with h
      exact ⟨p, r, k, ha, hl, h.symm⟩
    · simp at h

/-- Everything R171's operation can do when it goes on. -/
theorem acceptCommand_cases {s t : State} (h : acceptCommand s = .next t) :
    ∃ p r k, handlerAnswer s.params p = some r ∧ r.length = s.params.outCap ∧
      t = prime MK_REG (capByte s.params.outCap)
        (label .acceptCmd (memWriteList r 0 (strobeHandler p { s with draws := k }))) := by
  unfold acceptCommand at h
  cases hc : callHandler s <;> rw [hc] at h <;> simp only [onNext] at h
  · obtain ⟨p, r, k, ha, hl, hu⟩ := callHandler_cases hc
    injection h with h
    exact ⟨p, r, k, ha, hl, by rw [← h, hu]⟩
  all_goals cases h

/-- Everything R172's operation can do when it goes on. -/
theorem acceptGroup_cases {s t : State} (h : acceptGroup s = .next t) :
    ∃ p r k, handlerAnswer s.params p = some r ∧ r.length = s.params.outCap ∧
      t = label .acceptGrp (memWriteList r 0 (strobeHandler p { s with draws := k })) := by
  unfold acceptGroup at h
  cases hc : callHandler s <;> rw [hc] at h <;> simp only [onNext] at h
  · obtain ⟨p, r, k, ha, hl, hu⟩ := callHandler_cases hc
    injection h with h
    exact ⟨p, r, k, ha, hl, by rw [← h, hu]⟩
  all_goals cases h

/-- Everything R176's operation can do. -/
theorem changeAddress_cases (s : State) :
    ∃ k, changeAddress s = label .svcRejected { s with draws := k } ∨
      ∃ n r0 r1, changeAddress s = prime MK_SVC 2 (label .acceptChangeAddr
        (memWrite 1 r1 (memWrite 0 r0 (persist n { s with draws := k, addr := n })))) := by
  obtain ⟨n, e, x, k, ho⟩ := changeAddrOperands_draws s
  refine ⟨k, ?_⟩
  unfold changeAddress
  rw [ho]
  dsimp only
  split
  · exact .inr ⟨n, _, _, rfl⟩
  · exact .inl rfl

/-! The confirmation bytes of each form of `CA_REPLY` (00_scope.md R8). -/

theorem caReplyBytes_capacities {p : Params} (h : p.caReply = .capacities) (n e x : Byte) :
    caReplyBytes p n e x = (capByte p.inCap, capByte p.outCap) := by simp [caReplyBytes, h]

theorem caReplyBytes_bytes {p : Params} {r0 r1 : Byte} (h : p.caReply = .bytes r0 r1) (n e x : Byte) :
    caReplyBytes p n e x = (r0, r1) := by simp [caReplyBytes, h]

theorem caReplyBytes_request {p : Params} {q0 q1 : CaParam} (h : p.caReply = .request q0 q1) (n e x : Byte) :
    caReplyBytes p n e x = (caParamByte q0 n e x, caParamByte q1 n e x) := by simp [caReplyBytes, h]

theorem caReplyBytes_table {p : Params} {rows : List ((Byte × Byte × Byte) × (Byte × Byte))} {n e x : Byte}
    {r : Byte × Byte} (h : p.caReply = .table rows) (hr : rows.lookup (n, e, x) = some r) :
    caReplyBytes p n e x = r := by simp [caReplyBytes, h, hr]

/-- A parameter byte read from the buffer is the byte at its index. -/
theorem caParamByte_bufByte (q : CaParam) (s : State) :
    caParamByte q (s.bufByte 1) (s.bufByte 2) (s.bufByte 3) = s.bufByte (caParamIndex q) := by cases q <;> rfl

/-- A ChangeAddress with four bytes of buffer (44_dispatch.md R176). -/
theorem changeAddress_inRange {s : State} (h4 : 4 ≤ s.params.bufCap) :
    changeAddress s =
      if s.bufByte 2 = s.addr ∧ s.bufByte 3 = s.addr ^^^ s.bufByte 1 then
        let r := caReplyBytes s.params (s.bufByte 1) (s.bufByte 2) (s.bufByte 3)
        prime MK_SVC 2 (label .acceptChangeAddr
          (memWrite 1 r.2 (memWrite 0 r.1 (persist (s.bufByte 1) { s with addr := s.bufByte 1 }))))
      else label .svcRejected s := by
  simp only [changeAddress, changeAddrOperands_inRange h4]
  by_cases h : s.bufByte 2 = s.addr ∧ s.bufByte 3 = s.addr ^^^ s.bufByte 1
  · rw [if_pos h, if_pos (by simpa [changeAddrValid] using h)]
  · rw [if_neg h, if_neg (by simpa [changeAddrValid] using h)]

/-- Everything a service frame's dispatch can do with four bytes of buffer, and on which byte 0 (44_dispatch.md R173). -/
theorem serviceDispatch_cases {s : State} (h4 : 4 ≤ s.params.bufCap) :
    s.bufByte 0 = s.params.svcEcho ∧ serviceDispatch s = echo s ∨
    s.bufByte 0 = s.params.svcDescribe ∧ serviceDispatch s = describe s ∨
    s.bufByte 0 = s.params.svcChangeAddr ∧ serviceDispatch s = changeAddress s ∨
    s.bufByte 0 ≠ s.params.svcEcho ∧ s.bufByte 0 ≠ s.params.svcDescribe ∧ s.bufByte 0 ≠ s.params.svcChangeAddr ∧
      serviceDispatch s = unknownSubCommand s := by
  unfold serviceDispatch
  rw [memRead_inRange (by omega)]
  by_cases h1 : s.bufByte 0 = s.params.svcEcho
  · exact .inl ⟨h1, by simp [h1]⟩
  by_cases h2 : s.bufByte 0 = s.params.svcDescribe
  · exact .inr (.inl ⟨h2, by simp [subCommand, h1, ← h2]⟩)
  by_cases h3 : s.bufByte 0 = s.params.svcChangeAddr
  · exact .inr (.inr (.inl ⟨h3, by simp [subCommand, h1, h2, ← h3]⟩))
  · exact .inr (.inr (.inr ⟨h1, h2, h3, by simp [subCommand_unknown h1 h2 h3]⟩))

/-- Everything a dispatch can do when it goes on (44_dispatch.md R170, R173). -/
theorem dispatch_cases {s t : State} (h : dispatch s = .next t) :
    (s.isSvc = true ∧ ∃ k,
      (t = echo { s with draws := k } ∨ t = describe { s with draws := k } ∨
        t = unknownSubCommand { s with draws := k } ∨ t = label .svcRejected { s with draws := k } ∨
        ∃ n r0 r1, t = prime MK_SVC 2 (label .acceptChangeAddr
          (memWrite 1 r1 (memWrite 0 r0 (persist n { s with draws := k, addr := n })))))) ∨
    (s.isSvc = false ∧ ∃ p r k, r.length = s.params.outCap ∧
      ((s.isGrp = true ∧ t = label .acceptGrp (memWriteList r 0 (strobeHandler p { s with draws := k }))) ∨
       (s.isGrp = false ∧ t = prime MK_REG (capByte s.params.outCap)
          (label .acceptCmd (memWriteList r 0 (strobeHandler p { s with draws := k })))))) := by
  unfold dispatch at h
  by_cases hs : s.isSvc = true
  · left
    refine ⟨hs, ?_⟩
    rw [if_pos hs] at h
    injection h with h
    unfold serviceDispatch at h
    obtain ⟨k, hk⟩ := memRead_draws 0 s
    dsimp only at h
    rw [hk] at h
    generalize subCommand _ _ = q at h
    cases q
    · exact ⟨k, .inl h.symm⟩
    · exact ⟨k, .inr (.inl h.symm)⟩
    · obtain ⟨k', h1 | ⟨n, r0, r1, h1⟩⟩ := changeAddress_cases { s with draws := k }
      · exact ⟨k', .inr (.inr (.inr (.inl (h.symm.trans h1))))⟩
      · exact ⟨k', .inr (.inr (.inr (.inr ⟨n, r0, r1, h.symm.trans h1⟩)))⟩
    · exact ⟨k, .inr (.inr (.inl h.symm))⟩
  · right
    refine ⟨by simpa using hs, ?_⟩
    rw [if_neg hs] at h
    by_cases hg : s.isGrp = true
    · rw [if_pos hg] at h
      obtain ⟨p, r, k, -, hl, ht⟩ := acceptGroup_cases h
      exact ⟨p, r, k, hl, .inl ⟨hg, ht⟩⟩
    · rw [if_neg hg] at h
      obtain ⟨p, r, k, -, hl, ht⟩ := acceptCommand_cases h
      exact ⟨p, r, k, hl, .inr ⟨by simpa using hg, ht⟩⟩

/-! ### Runs (10_state.md R41) -/

@[simp] theorem runOutputs_zero (s : State) : runOutputs 0 s = [] := rfl

theorem runOutputs_step {s t : State} (k : Nat) (h : step s = .next t) :
    runOutputs (k + 1) s = t.out :: runOutputs k t := by
  rw [runOutputs, h]

end Sys2Proof.Machine
end

