-- ==== Sys2Proof/Laws/PerInstr.lean ====
section
/-! SUPPORT. One family of lemmas, one lemma per instruction: the word the encoder writes is a word of the instruction's
row of spec/opcode_table.json, whatever the escape flag. -/

namespace Sys2Proof

/-- The bits a row of spec/opcode_table.json fixes: its mask and match, and for the rows of formats Dispatch and
Primitive, which give an encoding string of a byte, the two upper bits at 0. -/
def Instr.rowBits : Instr → EvWord × EvWord
  | .reset => (0x300, 0x200)
  | .rxEsc => (0x3FF, 0x000)
  | .rxMarkSvc => (0x3FF, 0x001)
  | .rxMarkReg => (0x3FF, 0x002)
  | .rxMarkGrp => (0x3FF, 0x003)
  | .rxIdleData _ | .rxAddrReply _ | .rxAddrUni _ | .rxAddrGrp _ => (0x300, 0x000)
  | .rxGmask _ | .rxLen _ | .rxData _ | .rxCsum _ => (0x300, 0x000)
  | .txIdle | .txStart | .txAddr | .txLen | .txData | .txCsum => (0x300, 0x100)
  | .dispatchCmd _ | .dispatchGrp _ => (0x300, 0x000)
  | .svcEcho _ | .svcDescribe _ | .svcChangeAddr _ | .svcUnknown _ => (0x300, 0x000)
  | .encode _ | .decode _ => (0x300, 0x000)
  | .csumInit _ | .csumAdd _ _ | .csumFinal _ | .csumCheck _ _ => (0x300, 0x000)

namespace Laws.RowMatch

/-- The encoded word is one of the row's. -/
def Statement (i : Instr) : Prop :=
  ∀ e : Bool, encode e i &&& i.rowBits.1 = i.rowBits.2

/-- An event word of a kind has that kind in its upper bits. -/
theorem evWord_mask (k : BitVec 2) (b : Byte) : evWord k b &&& 0x300 = evWord k 0 := by revert k b; decide

theorem reset : Statement .reset := fun e => by cases e <;> decide
theorem rxEsc : Statement .rxEsc := fun e => by cases e <;> decide
theorem rxMarkSvc : Statement .rxMarkSvc := fun e => by cases e <;> decide
theorem rxMarkReg : Statement .rxMarkReg := fun e => by cases e <;> decide
theorem rxMarkGrp : Statement .rxMarkGrp := fun e => by cases e <;> decide
theorem rxIdleData (v : Byte) : Statement (.rxIdleData v) := fun _ => evWord_mask _ _
theorem rxAddrReply (v : Byte) : Statement (.rxAddrReply v) := fun _ => evWord_mask _ _
theorem rxAddrUni (v : Byte) : Statement (.rxAddrUni v) := fun _ => evWord_mask _ _
theorem rxAddrGrp (v : Byte) : Statement (.rxAddrGrp v) := fun _ => evWord_mask _ _
theorem rxGmask (v : Byte) : Statement (.rxGmask v) := fun _ => evWord_mask _ _
theorem rxLen (v : Byte) : Statement (.rxLen v) := fun _ => evWord_mask _ _
theorem rxData (v : Byte) : Statement (.rxData v) := fun _ => evWord_mask _ _
theorem rxCsum (v : Byte) : Statement (.rxCsum v) := fun _ => evWord_mask _ _
theorem txIdle : Statement .txIdle := fun e => by cases e <;> decide
theorem txStart : Statement .txStart := fun e => by cases e <;> decide
theorem txAddr : Statement .txAddr := fun e => by cases e <;> decide
theorem txLen : Statement .txLen := fun e => by cases e <;> decide
theorem txData : Statement .txData := fun e => by cases e <;> decide
theorem txCsum : Statement .txCsum := fun e => by cases e <;> decide
theorem dispatchCmd (c : Byte) : Statement (.dispatchCmd c) := fun _ => evWord_mask _ _
theorem dispatchGrp (c : Byte) : Statement (.dispatchGrp c) := fun _ => evWord_mask _ _
theorem svcEcho (c : Byte) : Statement (.svcEcho c) := fun _ => evWord_mask _ _
theorem svcDescribe (c : Byte) : Statement (.svcDescribe c) := fun _ => evWord_mask _ _
theorem svcChangeAddr (c : Byte) : Statement (.svcChangeAddr c) := fun _ => evWord_mask _ _
theorem svcUnknown (c : Byte) : Statement (.svcUnknown c) := fun _ => evWord_mask _ _
theorem encode (v : Byte) : Statement (.encode v) := fun _ => evWord_mask _ _
theorem decode (b : Byte) : Statement (.decode b) := fun _ => evWord_mask _ _
theorem csumInit (acc : Accum) : Statement (.csumInit acc) := fun _ => evWord_mask _ _
theorem csumAdd (acc : Accum) (v : Byte) : Statement (.csumAdd acc v) := fun _ => evWord_mask _ _
theorem csumFinal (acc : Accum) : Statement (.csumFinal acc) := fun _ => evWord_mask _ _
theorem csumCheck (acc : Accum) (c : Byte) : Statement (.csumCheck acc c) := fun _ => evWord_mask _ _

end Laws.RowMatch

end Sys2Proof
end

