-- ==== Sys2Proof/Tests/Slice0.lean ====
section
/-! SUPPORT. The model's own tests. Expected results are from spec/95_test_vectors.md (V numbers) and the rules named.
The bindings are section 0 of that file: codes 0x10, 0x11, 0x12, BUF_CAP 4, BUF_INIT 0xEE, a handler that doubles. -/

namespace Sys2Proof.Machine

/-- The bindings of 95_test_vectors.md section 0. -/
def sample : Params :=
  { bufCap := 4, inCap := 1, outCap := 1, handler := [([0x05], some [0x0A]), ([0x07], some [0x0E])],
    svcEcho := 0x10, svcDescribe := 0x11, svcChangeAddr := 0x12, caReply := .capacities }

/-- A device with these bindings, at address `a`. -/
def dev (a : Byte) : State := { State.resetWith sample a with bufInit := [0xEE, 0xEE, 0xEE, 0xEE] }

/-- The same with other capacities (V91, V92: 3 and 2). -/
def dev32 : State := { dev 0x40 with params := { sample with inCap := 3, outCap := 2, handler := [] } }

/-- Whether an outcome is a next state with a property. -/
def leaves (o : Result) (p : State → Bool) : Bool :=
  match o with
  | .next s => p s
  | _ => false

/-- The fault of an outcome, if there is one. -/
def faultOf (o : Result) : Option Fault :=
  match o with
  | .fault e => some e
  | _ => none

/-- Whether a word decodes at a site to an instruction. -/
def reads (site : Site) (w : EvWord) (i : Instr) : Bool :=
  match decode site w with
  | .ok j => i == j
  | .error _ => false

/-- A reading context in a receive state. -/
def rxIn (st : RxState) (esc grp : Bool) : Site :=
  .ev { resetCtx with rxState := st, rxEsc := esc, isGrp := grp }

/-- A reading context in a transmit state. -/
def txIn (st : TxState) (more : Bool) : Site := .ev { resetCtx with txState := st, txMore := more }

/-! ### Well-formedness: each check refuses an ill-formed term -/

theorem test_wf_reply_needs_bit7 : Instr.wf (.rxAddrReply 0x7F) = false := by decide
theorem test_wf_unicast_refuses_bit7 : Instr.wf (.rxAddrUni 0x80) = false := by decide
theorem test_wf_group_refuses_bit7 : Instr.wf (.rxAddrGrp 0x80) = false := by decide
theorem test_admits_refuses_bare_marker_value_as_data : (rxIn .waitLength false false).admits (.rxLen 3) = false :=
  by decide
theorem test_params_refuse_small_buffer : ({ sample with bufCap := 3 } : Params).wf = false := by decide
theorem test_params_refuse_large_buffer : ({ sample with bufCap := 256 } : Params).wf = false := by decide
theorem test_params_refuse_equal_codes : ({ sample with svcDescribe := 0x10 } : Params).wf = false := by decide
theorem test_params_refuse_blocking_handler : ({ sample with handler := [([0x05], none)] } : Params).wf = false :=
  by decide
theorem test_params_accept_sample : sample.wf = true := by decide

/-! ### Decoding: one word for every row, written out from 30_encoding.md R70, R72 and spec/opcode_table.json -/

theorem test_decode_reset : reads (.ev resetCtx) 0b1000000000 .reset = true :=
  by decide
theorem test_decode_rx_esc : reads (rxIn .waitData false false) 0b0000000000 .rxEsc = true :=
  by decide
theorem test_decode_rx_mark_svc : reads (rxIn .waitData false false) 0b0000000001 .rxMarkSvc = true :=
  by decide
theorem test_decode_rx_mark_reg : reads (rxIn .idle false false) 0b0000000010 .rxMarkReg = true :=
  by decide
theorem test_decode_rx_mark_grp : reads (rxIn .waitChecksum false false) 0b0000000011 .rxMarkGrp = true :=
  by decide
theorem test_decode_rx_idle_data : reads (rxIn .idle true false) 0b0000000110 (.rxIdleData 0x02) = true :=
  by decide
theorem test_decode_rx_addr_reply : reads (rxIn .waitAddress false true) 0b0010000000 (.rxAddrReply 0x80) = true :=
  by decide
theorem test_decode_rx_addr_uni : reads (rxIn .waitAddress true false) 0b0000000101 (.rxAddrUni 0x01) = true :=
  by decide
theorem test_decode_rx_addr_grp : reads (rxIn .waitAddress false true) 0b0000100000 (.rxAddrGrp 0x20) = true :=
  by decide
theorem test_decode_rx_gmask : reads (rxIn .waitGroupMask true true) 0b0000000100 (.rxGmask 0x00) = true :=
  by decide
theorem test_decode_rx_len : reads (rxIn .waitLength true false) 0b0000000010 (.rxLen 0xFE) = true :=
  by decide
theorem test_decode_rx_data : reads (rxIn .waitData false false) 0b0001010101 (.rxData 0x55) = true :=
  by decide
theorem test_decode_rx_csum : reads (rxIn .waitChecksum false false) 0b0010111010 (.rxCsum 0xBA) = true :=
  by decide
theorem test_decode_tx_idle : reads (txIn .idle false) 0b0100000000 .txIdle = true :=
  by decide
theorem test_decode_tx_start : reads (txIn .sendStart true) 0b0111111111 .txStart = true :=
  by decide
theorem test_decode_tx_addr : reads (txIn .sendAddress true) 0b0100000000 .txAddr = true :=
  by decide
theorem test_decode_tx_len : reads (txIn .sendLength true) 0b0100000000 .txLen = true :=
  by decide
theorem test_decode_tx_data : reads (txIn .sendData true) 0b0100000000 .txData = true :=
  by decide
theorem test_decode_tx_csum : reads (txIn .sendData false) 0b0100000000 .txCsum = true :=
  by decide
theorem test_decode_dispatch_cmd : reads (.dispatch false false .echo) 0b0010111010 (.dispatchCmd 0xBA) = true :=
  by decide
theorem test_decode_dispatch_grp : reads (.dispatch false true .echo) 0b0011101000 (.dispatchGrp 0xE8) = true :=
  by decide
theorem test_decode_svc_echo : reads (.dispatch true false .echo) 0b0011100101 (.svcEcho 0xE5) = true :=
  by decide
theorem test_decode_svc_describe : reads (.dispatch true false .describe) 0b0010101110 (.svcDescribe 0xAE) = true :=
  by decide
theorem test_decode_svc_change_addr : reads (.dispatch true false .changeAddr) 0b0000101000 (.svcChangeAddr 0x28) = true :=
  by decide
theorem test_decode_svc_unknown : reads (.dispatch true false .unknown) 0b0001001000 (.svcUnknown 0x48) = true :=
  by decide
theorem test_decode_encode : reads (.component .encode) 0b0000000011 (.encode 0x03) = true :=
  by decide
theorem test_decode_decode : reads (.component .decode) 0b0001000001 (.decode 0x41) = true :=
  by decide
theorem test_decode_csum_init : reads (.component (.csumInit .rx)) 0b0000000000 (.csumInit .rx) = true :=
  by decide
theorem test_decode_csum_add : reads (.component (.csumAdd .tx)) 0b0000100000 (.csumAdd .tx 0x20) = true :=
  by decide
theorem test_decode_csum_final : reads (.component (.csumFinal .tx)) 0b0000000000 (.csumFinal .tx) = true :=
  by decide
theorem test_decode_csum_check : reads (.component (.csumCheck .rx)) 0b0010111011 (.csumCheck .rx 0xBB) = true :=
  by decide
theorem test_decode_reserved : decode (.ev resetCtx) 0b1100000000 = .error (.reservedKind 0b1100000000) := rfl
theorem test_table_word_of_a_start_marker : decodeTableWord 16 0x002 = some .rxMarkReg := by decide
theorem test_fetch_word_runs_next :
    leaves (step (State.reset.withFetchWord 16 0x001)) (fun t => t.isSvc && t.rxState = .waitAddress) = true := by decide

/-! ### Effects: at most two per instruction -/

/-- V100. -/
theorem test_reset_mid_reply : leaves (exec .reset
    { dev 0x40 with
      addr := 0x55, txState := .sendLength, txEsc := true, rxState := .waitData, rxSum := 9, isGrp
      := true }) (fun t =>
    t.addr = 0x40 && t.rxState = .idle && t.isGrp = false && t.rxSum = 0 && t.txState = .idle &&
    t.txEsc = false && t.out.wire = none) = true := by decide
/-- V38. -/
theorem test_esc_in_data : leaves (exec .rxEsc
    { dev 0x40 with rxState := .waitData, rxIdx := 1, rxSum := 0x41 }) (fun t =>
    t.rxState = .waitData && t.rxEsc = true && t.rxIdx = 1 && t.rxSum = 0x41) = true := by decide
/-- V34. -/
theorem test_mark_svc_resyncs : leaves (exec .rxMarkSvc
    { dev 0x40 with rxState := .waitData, rxSum := 0x7A }) (fun t =>
    t.rxState = .waitAddress && t.isSvc = true && t.isGrp = false && t.rxSum = 0 && t.out.labels =
    [.resync]) = true := by decide
/-- V33. -/
theorem test_mark_reg_from_idle : leaves (exec .rxMarkReg
    { dev 0x40 with isSvc := true, isGrp := true, rxSum := 1 }) (fun t =>
    t.rxState = .waitAddress && t.isSvc = false && t.isGrp = false && t.rxSum = 0 && t.out.labels
    = []) = true := by decide
/-- V35. -/
theorem test_mark_grp_resyncs : leaves (exec .rxMarkGrp
    { dev 0x40 with rxState := .waitChecksum, isSvc := true }) (fun t =>
    t.rxState = .waitAddress && t.isSvc = false && t.isGrp = true && t.out.labels = [.resync]) = true := by decide
/-- V39. -/
theorem test_idle_data_ignored : leaves (exec (.rxIdleData 0x40)
    (dev 0x40)) (fun t =>
    t.rxState = .idle && t.rxSum = 0 && t.out.labels = []) = true := by decide
/-- V41. -/
theorem test_reply_overheard : leaves (exec (.rxAddrReply 0xC0)
    { dev 0x40 with rxState := .waitAddress, rxSum := 3 }) (fun t =>
    t.rxState = .idle && t.rxSum = 3 && t.out.labels = [.replyOverheard]) = true := by decide
/-- V43. -/
theorem test_unicast_match : leaves (exec (.rxAddrUni 0x40)
    { dev 0x40 with rxState := .waitAddress }) (fun t =>
    t.rxState = .waitLength && t.rxSum = 0x40 && t.out.labels = []) = true := by decide
/-- V44. -/
theorem test_unicast_mismatch : leaves (exec (.rxAddrUni 0x40)
    { dev 0x41 with rxState := .waitAddress }) (fun t =>
    t.rxState = .idle && t.rxSum = 0 && t.out.labels = [.addrMismatch]) = true := by decide
/-- V46. -/
theorem test_group_address_held : leaves (exec (.rxAddrGrp 0x20)
    { dev 0x40 with rxState := .waitAddress, isGrp := true }) (fun t =>
    t.rxState = .waitGroupMask && t.grpAddr = 0x20 && t.rxSum = 0x20) = true := by decide
/-- V47. -/
theorem test_group_mask_match : leaves (exec (.rxGmask 0xF0)
    { dev 0x2F with rxState := .waitGroupMask, grpAddr := 0x20, rxSum := 0x20 }) (fun t =>
    t.rxState = .waitLength && t.rxSum = 0x10 && t.out.labels = []) = true := by decide
/-- V48. -/
theorem test_group_mask_mismatch : leaves (exec (.rxGmask 0xF0)
    { dev 0x30 with rxState := .waitGroupMask, grpAddr := 0x20, rxSum := 0x20 }) (fun t =>
    t.rxState = .idle && t.rxSum = 0x10 && t.out.labels = [.groupMismatch]) = true := by decide
/-- V52. -/
theorem test_length_zero : leaves (exec (.rxLen 0)
    { dev 0x40 with rxState := .waitLength, rxSum := 0x40, rxLen := 7, rxIdx := 7 }) (fun t =>
    t.rxState = .waitChecksum && t.rxLen = 0 && t.rxIdx = 0 && t.rxSum = 0x40) = true := by decide
/-- V54. -/
theorem test_length_255 : leaves (exec (.rxLen 0xFF)
    { dev 0x40 with rxState := .waitLength, rxSum := 0x40 }) (fun t =>
    t.rxState = .waitData && t.rxLen = 0xFF && t.rxSum = 0x3F) = true := by decide
/-- V56. -/
theorem test_last_payload_byte : leaves (exec (.rxData 0x05)
    { dev 0x40 with rxState := .waitData, rxLen := 1, rxSum := 0x41 }) (fun t =>
    t.rxState = .waitChecksum && t.rxIdx = 1 && t.rxSum = 0x46 && t.buf = [(0, 0x05)]) = true := by decide
/-- V58. -/
theorem test_overflow_dropped : leaves (exec (.rxData 0x55)
    { dev 0x40 with rxState := .waitData, rxLen := 6, rxIdx := 4, rxSum := 0x1A }) (fun t =>
    t.rxState = .waitData && t.rxIdx = 5 && t.rxSum = 0x6F && t.buf = [] && t.out.labels =
    [.overflowDrop]) = true := by decide
/-- V60. -/
theorem test_checksum_accepted : leaves (exec (.rxCsum 0xBA)
    { dev 0x40 with rxState := .waitChecksum, rxSum := 0x46, buf := [(0, 0x05)] }) (fun t =>
    t.rxState = .idle && t.rxSum = 0 && t.txState = .sendStart && t.out.labels = [.acceptCmd]) = true := by decide
/-- V61. -/
theorem test_checksum_rejected : leaves (exec (.rxCsum 0xBB)
    { dev 0x40 with rxState := .waitChecksum, rxSum := 0x46 }) (fun t =>
    t.rxState = .idle && t.rxSum = 1 && t.txState = .idle && t.out.labels = [.checksumFail]) = true := by decide
/-- V63. -/
theorem test_tx_idle_silent : leaves (exec .txIdle
    (dev 0x40)) (fun t =>
    t.txState = .idle && t.out.wire = none) = true := by decide
/-- V64. -/
theorem test_tx_start_raw_marker : leaves (exec .txStart
    { dev 0x40 with txState := .sendStart, txMark := 0x01 }) (fun t =>
    t.out.wire = some 0x01 && t.txState = .sendAddress && t.txSum = 0) = true := by decide
/-- V67. -/
theorem test_tx_addr_with_reply_bit : leaves (exec .txAddr
    { dev 0x01 with txState := .sendAddress }) (fun t =>
    t.out.wire = some 0x81 && t.txState = .sendLength && t.txSum = 0x81) = true := by decide
/-- V68. -/
theorem test_tx_len_first_half : leaves (exec .txLen
    { dev 0x40 with txState := .sendLength, txLen := 1, txSum := 0xC0 }) (fun t =>
    t.out.wire = some 0 && t.txState = .sendLength && t.txEsc = true && t.txSum = 0xC0) = true := by decide
/-- V69. -/
theorem test_tx_len_second_half : leaves (exec .txLen
    { dev 0x40 with txState := .sendLength, txLen := 1, txEsc := true, txSum := 0xC0 }) (fun t =>
    t.out.wire = some 5 && t.txState = .sendData && t.txEsc = false && t.txSum = 0xC1) = true := by decide
/-- V71. -/
theorem test_tx_data_verbatim : leaves (exec .txData
    { dev 0x40 with txState := .sendData, txLen := 1, buf := [(0, 0x0A)], txSum := 0xC1 }) (fun t =>
    t.out.wire = some 0x0A && t.txIdx = 1 && t.txSum = 0xCB) = true := by decide
/-- V74. -/
theorem test_tx_data_changed_mid_escape : leaves (exec .txData
    { dev 0x40 with txState := .sendData, txLen := 1, txEsc := true, buf := [(0, 0x50)], txSum := 0 }) (fun t =>
    t.out.wire = some 0x54 && t.txIdx = 1 && t.txEsc = false && t.txSum = 0x50) = true := by decide
/-- V75. -/
theorem test_tx_csum_ends : leaves (exec .txCsum
    { dev 0x40 with txState := .sendData, txIdx := 1, txLen := 1, txSum := 0xCB }) (fun t =>
    t.out.wire = some 0x35 && t.txState = .idle && t.txSum = 0xCB) = true := by decide
/-- V77, first tick. -/
theorem test_tx_csum_escaped : leaves (exec .txCsum
    { dev 0x40 with txState := .sendData, txSum := 0xFF }) (fun t =>
    t.out.wire = some 0 && t.txState = .sendData && t.txEsc = true) = true := by decide
/-- V82. -/
theorem test_dispatch_cmd : leaves (exec (.dispatchCmd 0xBA)
    { dev 0x40 with buf := [(0, 0x05)] }) (fun t =>
    t.buf = [(0, 0x0A)] && t.out.hcall = some [0x05] && t.txState = .sendStart && t.txMark = 0x02
    && t.txLen = 1 && t.out.labels = [.acceptCmd]) = true := by decide
/-- V86. -/
theorem test_dispatch_grp : leaves (exec (.dispatchGrp 0xE8)
    { dev 0x21 with buf := [(0, 0x07)], txMark := 1 }) (fun t =>
    t.buf = [(0, 0x0E)] && t.out.hcall = some [0x07] && t.txState = .idle && t.txMark = 1 &&
    t.out.labels = [.acceptGrp]) = true := by decide
/-- V88. -/
theorem test_echo : leaves (exec (.svcEcho 0xE5)
    { dev 0x05 with rxLen := 3, buf := [(0, 0x10), (1, 0), (2, 3)] }) (fun t =>
    t.txState = .sendStart && t.txMark = 0x01 && t.txLen = 3 && t.buf = [(0, 0x10), (1, 0), (2,
    3)] && t.out.labels = [.acceptEcho]) = true := by decide
/-- V91. -/
theorem test_describe : leaves (exec (.svcDescribe 0xAE)
    { dev32 with buf := [(0, 0x11)] }) (fun t =>
    t.buf = [(0, 3), (1, 2)] && t.txLen = 2 && t.txMark = 0x01 && t.out.labels = [.acceptDescribe]) = true := by decide
/-- V92. -/
theorem test_change_addr_valid : leaves (exec (.svcChangeAddr 0x28)
    { dev32 with buf := [(0, 0x12), (1, 0x41), (2, 0x40), (3, 0x01)] }) (fun t =>
    t.addr = 0x41 && t.out.store = some 0x41 && t.buf = [(0, 3), (1, 2), (2, 0x40), (3, 0x01)] &&
    t.out.labels = [.acceptChangeAddr]) = true := by decide
/-- V93. -/
theorem test_change_addr_bad_echo : leaves (exec (.svcChangeAddr 0x29)
    { dev32 with buf := [(0, 0x12), (1, 0x41), (2, 0x3F), (3, 0x01)] }) (fun t =>
    t.addr = 0x40 && t.out.store = none && t.txState = .idle && t.out.labels = [.svcRejected]) = true := by decide
/-- V98. -/
theorem test_svc_unknown : leaves (exec (.svcUnknown 0x48)
    { dev 0x40 with buf := [(0, 0x77)] }) (fun t =>
    t.txState = .idle && t.buf = [(0, 0x77)] && t.out.labels = [.svcUnknown]) = true := by decide
/-- V3. -/
theorem test_encode_first_half : leaves (exec (.encode 0x03)
    (dev 0x40)) (fun t =>
    t.out.wire = some 0 && t.txEsc = true && t.out.result = some (.done false)) = true := by decide
/-- V7. -/
theorem test_encode_not_retested : leaves (exec (.encode 0x50)
    { dev 0x40 with txEsc := true }) (fun t =>
    t.out.wire = some 0x54 && t.txEsc = false && t.out.result = some (.done true)) = true := by decide
/-- V18. -/
theorem test_decode_marker_value_after_prefix : leaves (exec (.decode 0x02)
    { dev 0x40 with rxEsc := true }) (fun t =>
    t.rxEsc = false && t.out.result = some (.decoded (.data 0xFE))) = true := by decide
/-- V8. -/
theorem test_decode_prefix : leaves (exec (.decode 0x00)
    (dev 0x40)) (fun t =>
    t.rxEsc = true && t.out.result = some (.decoded .esc)) = true := by decide
/-- V23. -/
theorem test_csum_init : leaves (exec (.csumInit .rx)
    { dev 0x40 with rxSum := 0x7F, txSum := 1 }) (fun t =>
    t.rxSum = 0 && t.txSum = 1) = true := by decide
/-- V24. -/
theorem test_csum_add_wraps : leaves (exec (.csumAdd .tx 0x20)
    { dev 0x40 with txSum := 0xF0, rxSum := 1 }) (fun t =>
    t.txSum = 0x10 && t.rxSum = 1) = true := by decide
/-- V26. -/
theorem test_csum_final : leaves (exec (.csumFinal .tx)
    { dev 0x40 with txSum := 0x46 }) (fun t =>
    t.txSum = 0x46 && t.out.result = some (.value 0xBA)) = true := by decide
/-- V27. -/
theorem test_csum_final_zero : leaves (exec (.csumFinal .rx)
    (dev 0x40)) (fun t =>
    t.rxSum = 0 && t.out.result = some (.value 0)) = true := by decide
/-- V30. -/
theorem test_csum_check_accepts : leaves (exec (.csumCheck .rx 0xBA)
    { dev 0x40 with rxSum := 0x46 }) (fun t =>
    t.rxSum = 0 && t.out.result = some (.accepted true)) = true := by decide
/-- V31. -/
theorem test_csum_check_rejects : leaves (exec (.csumCheck .rx 0xBB)
    { dev 0x40 with rxSum := 0x46 }) (fun t =>
    t.rxSum = 1 && t.out.result = some (.accepted false)) = true := by decide
/-- R178: a handler that never returns. -/
theorem test_handler_blocks : faultOf (exec (.dispatchCmd 0) { dev 0x40 with
    params := { sample with handler := [([0xEE], none)] } }) = some .handlerBlocks := by decide
/-- R178: a handler that answers with another length. -/
theorem test_handler_length : faultOf (exec (.dispatchGrp 0) { dev 0x40 with
    params := { sample with handler := [([0xEE], some [1, 2])] } }) = some .handlerReplyLength := by decide


/-! ### A state and operands that meet the hypotheses of each statement, with boundary values of its clauses -/

theorem test_meets_DecodeOfEncodeIsSelf :
    Instr.wf (.rxAddrReply 0x80) = true ∧ (rxIn .waitAddress false true).admits (.rxAddrReply 0x80) = true ∧
    Instr.wf (.rxLen 4) = true ∧ (rxIn .waitLength false false).admits (.rxLen 4) = true ∧
    (rxIn .waitLength true false).admits (.rxLen 3) = true ∧
    (Site.dispatch true false .echo).admits (.svcEcho 0xFF) = true ∧
    (Site.component (.csumAdd .tx)).admits (.csumAdd .tx 0) = true := by decide

theorem test_meets_EveryEventWordIsExactlyOneRow :
    EvWord.kind 0b1011111111 ≠ 0b11 ∧ Applies resetCtx 0b1011111111 .reset ∧
    Applies { resetCtx with rxEsc := true } 0b0000000001 (.rxIdleData 0xFD) :=
  ⟨by decide, ⟨rfl, rfl, by decide, by decide⟩, rfl, rfl, by decide, by decide⟩

theorem test_meets_ReservedKindIsRefused :
    EvWord.kind 0b1111111111 = 0b11 ∧ ({ dev 0x40 with events := [0b1111111111] } : State).events = [0b1111111111] := by
  decide

theorem test_meets_ByteAfterPrefixIsData : ({ resetCtx with rxEsc := true } : Ctx).rxEsc = true := by decide

theorem test_meets_ResetStateHoldsTheSpecsValues : 3 < State.reset.params.bufCap := by
  have h := Config.board.legal
  simp only [Params.wf, Bool.and_eq_true, decide_eq_true_eq] at h
  exact h.1.1.1.1.1.1.1

theorem test_meets_ResetEventReinitialises : EvWord.kind 0b1000000001 = KIND_RESET ∧ 3 < (dev 0x40).params.bufCap := by
  decide

/-- A device holding the ChangeAddress request of V92. -/
def devChange : State := { dev 0x40 with buf := [(0, 0x12), (1, 0x41), (2, 0x40), (3, 0x01)] }

theorem test_meets_PersistedAddressOutlivesReset :
    ∃ t u, devChange.params.wf = true ∧ devChange.bufByte 2 = devChange.addr ∧
      devChange.bufByte 3 = devChange.addr ^^^ devChange.bufByte 1 ∧
      exec (.svcChangeAddr 0x28) devChange = .next t ∧ exec .reset t = .next u :=
  ⟨_, _, by decide, by decide, by decide, rfl, rfl⟩

/-- A device in the middle of an escaped reply length, with a tick pending (V69). -/
def devSending : State := { dev 0x40 with
  txState := .sendLength, txLen := 1, txEsc := true, txSum := 0xC0, txMark := 0x02, events := [tickWord] }

theorem test_meets_EveryStepKeepsInvariant : EngineInv devSending ∧ ∃ t, step devSending = .next t :=
  ⟨⟨by decide, by decide, by decide, by decide, by decide, by decide, by decide, rfl, rfl, by decide⟩, _, rfl⟩

theorem test_meets_StepRunsTheDecodedInstruction :
    devSending.events = tickWord :: [] ∧ decode (.ev devSending.ctx) tickWord = .ok .txLen := ⟨rfl, rfl⟩

theorem test_meets_StepWithoutEventIsIdle : (dev 0x40).events = [] := rfl

theorem test_meets_EveryEventHasAStep :
    devSending.params.wf = true ∧ devSending.events = tickWord :: [] ∧ tickWord.kind ≠ 0b11 := by decide

/-- A device with a right checksum byte pending, after the service request in `buf` (V92). -/
def devService : State := { devChange with
  rxState := .waitChecksum, isSvc := true, rxLen := 4, rxIdx := 4, rxSum := 0xD8, events := [rxWord 0x28] }

/-- A device with a right checksum byte pending, after the regular request of V82. -/
def devRegular : State := { dev 0x40 with
  rxState := .waitChecksum, rxLen := 1, rxIdx := 1, rxSum := 0x46, buf := [(0, 0x05)], events := [rxWord 0xBA] }

theorem test_meets_OutputsFireOnTheirEvents :
    (∃ t, step devSending = .next t ∧ t.out.wire ≠ none) ∧ (∃ t, step devService = .next t ∧ t.out.store ≠ none) ∧
    ∃ t, step devRegular = .next t ∧ t.out.hcall ≠ none :=
  ⟨⟨_, rfl, by decide⟩, ⟨_, rfl, by decide⟩, _, rfl, by decide⟩

theorem test_meets_EscapePrefixAndMarkers : resetCtx.rxEsc = false := rfl

theorem test_meets_OverheardReplyIsDiscarded :
    BitVec.msb (0x80 : Byte) = true ∧ (decodeByte false 0x80).1 = .data 0x80 := by decide

theorem test_meets_UnicastAddressMustMatch :
    BitVec.msb (0x7F : Byte) = false ∧ (decodeByte false 0x7F).1 = .data 0x7F ∧ 0x7F = (dev 0x7F).addr ∧
    (0x7E : Byte) ≠ (dev 0x7F).addr := by decide

theorem test_meets_GroupAddressIsHeld :
    BitVec.msb (0x00 : Byte) = false ∧ (decodeByte true 0x04).1 = .data 0x00 := by decide

theorem test_meets_GroupMaskDecides :
    (0xFE &&& (0x20 : Byte) = 0xFE &&& (dev 0x21).addr) ∧ (0xFF &&& (0x20 : Byte) ≠ 0xFF &&& (dev 0x21).addr) := by decide

theorem test_meets_PayloadByteIsSummedCountedAndStored :
    Memory.wf devChange = true ∧ (3 : Byte).toNat < devChange.params.bufCap ∧
    devChange.params.bufCap ≤ (4 : Byte).toNat ∧ (0 : Nat) ≠ (3 : Byte).toNat := by decide

theorem test_meets_ChecksumByteEndsTheFrame :
    (decodeByte false 0xBA).1 = .data 0xBA ∧ devRegular.rxSum + 0xBA = 0 ∧ devRegular.rxSum + 0xBB ≠ 0 ∧
    (∃ t, exec (.rxCsum 0xBA) devRegular = .next t) ∧ ∃ t, exec (.rxCsum 0xBB) devRegular = .next t :=
  ⟨by decide, by decide, by decide, ⟨_, rfl⟩, _, rfl⟩

theorem test_meets_RightChecksumRunsTheSelectedOperation :
    devRegular.params.wf = true ∧ devRegular.rxSum + 0xBA = 0 ∧ devRegular.isSvc = false ∧ devRegular.isGrp = false ∧
    ({ devRegular with isGrp := true } : State).isGrp = true ∧
    devService.rxSum + 0x28 = 0 ∧ devService.isSvc = true ∧ devService.bufByte 0 = devService.params.svcChangeAddr ∧
    ({ devService with buf := [(0, 0x10)] } : State).bufByte 0 = devService.params.svcEcho ∧
    ({ devService with buf := [(0, 0x11)] } : State).bufByte 0 = devService.params.svcDescribe := by decide

/-- A byte 0 next to the codes. -/
theorem test_meets_RightChecksumRunsTheSelectedOperation_unknown :
    let s := { devService with buf := [(0, 0x13)] }
    s.isSvc = true ∧ s.bufByte 0 ≠ s.params.svcEcho ∧ s.bufByte 0 ≠ s.params.svcDescribe ∧
    s.bufByte 0 ≠ s.params.svcChangeAddr := by decide

theorem test_meets_ticks_that_send_a_byte :
    tickWord.kind = KIND_TICK ∧ devSending.txEsc = true ∧ (dev 0x40).txEsc = false ∧ MK_MAX < (0x04 : Byte) ∧
    (0x03 : Byte) ≤ MK_MAX := by decide

theorem test_meets_DataTickSendsTheBufferByte : (3 : Byte).toNat < (dev 0x40).params.bufCap := by decide

theorem test_meets_dispatch_statements : Memory.wf devRegular = true ∧ devRegular.params.wf = true := by decide

theorem test_meets_HandlerOutsideItsContractHasNoStep :
    let s := { dev 0x40 with params := { sample with handler := [([0xEE], none)] } }
    let u := { dev 0x40 with params := { sample with handler := [([0xEE], some [1, 2])] } }
    let v := { dev 0x40 with params := { sample with handler := [([0xEE], some [1])] } }
    s.params.inCap ≤ s.params.bufCap ∧ handlerAnswer s.params (handlerInput s) = none ∧
    handlerAnswer u.params (handlerInput u) = some [1, 2] ∧ [1, 2].length ≠ u.params.outCap ∧
    handlerAnswer v.params (handlerInput v) = some [1] ∧ [1].length = v.params.outCap := by decide

theorem test_meets_LegalParametersKeepTheContract : sample.wf = true := by decide

theorem test_meets_DescribeReportsTheCapacities :
    Memory.wf dev32 = true ∧ dev32.params.wf = true ∧ (2 : Nat) ≤ 2 := by decide

theorem test_meets_ChangeAddressValidatesThenChanges :
    Memory.wf devChange = true ∧ devChange.params.wf = true ∧ devChange.params.caReply = .capacities ∧
    (devChange.bufByte 2 = devChange.addr ∧ devChange.bufByte 3 = devChange.addr ^^^ devChange.bufByte 1) ∧
    ¬((dev 0x40).bufByte 2 = (dev 0x40).addr ∧ (dev 0x40).bufByte 3 = (dev 0x40).addr ^^^ (dev 0x40).bufByte 1) := by
  decide

/-- `devChange` with another setting of `CA_REPLY`. -/
def devConfirm (c : CaReply) : State := { devChange with params := { sample with caReply := c } }

theorem test_meets_ChangeAddressValidatesThenChanges_settings :
    (devConfirm (.bytes 1 2)).params.wf = true ∧
    (devConfirm (.request .newAddress .xorCheckByte)).params.wf = true ∧
    (devConfirm (.table [((0x41, 0x40, 0x01), (7, 8))])).params.wf = true ∧
    [(((0x41 : Byte), (0x40 : Byte), (0x01 : Byte)), ((7 : Byte), (8 : Byte)))].lookup
      (devChange.bufByte 1, devChange.bufByte 2, devChange.bufByte 3) = some (7, 8) := by decide

/-- 92 D19: the request's parameter bytes as the confirmation, by setting the parameter. -/
theorem test_confirm_with_request_bytes :
    leaves (exec (.svcChangeAddr 0x28) (devConfirm (.request .newAddress .xorCheckByte))) (fun t =>
      t.bufByte 0 = 0x41 && t.bufByte 1 = 0x01 && t.addr = 0x41) = true := by decide

theorem test_meets_UnknownSubCommandIsDiscarded :
    (0x13 : Byte) ≠ (dev 0x40).params.svcEcho ∧ (0x13 : Byte) ≠ (dev 0x40).params.svcDescribe ∧
    (0x13 : Byte) ≠ (dev 0x40).params.svcChangeAddr := by decide

theorem test_meets_EncodePrimitiveEmitsOneByte :
    devSending.txEsc = true ∧ ((dev 0x40).txEsc = false ∧ (3 : Byte) ≤ 3) ∧ (dev 0x40).txEsc = false ∧ (3 : Byte) < 4 := by
  decide

theorem test_meets_DecodePrimitiveClassifies :
    ({ dev 0x40 with rxEsc := true } : State).rxEsc = true ∧ (dev 0x40).rxEsc = false ∧ (4 : Byte) ≤ 4 := by decide

theorem test_meets_BufferWritesReadBack :
    Memory.wf devChange = true ∧ 3 < devChange.params.bufCap ∧ devChange.params.bufCap ≤ 4 ∧ 2 ≠ 3 := by decide

/-- A device with its last payload byte pending (V56). -/
def devPayload : State := { dev 0x40 with rxState := .waitData, rxLen := 1, rxSum := 0x41, events := [rxWord 0x05] }

theorem test_meets_OnlyPayloadDispatchAndResetWriteTheBuffer :
    Memory.wf devPayload = true ∧ devPayload.params.wf = true ∧
    (∃ t, step devPayload = .next t ∧ t.bufByte 0 ≠ devPayload.bufByte 0) ∧
    Memory.wf devService = true ∧ (∃ t, step devService = .next t ∧ t.bufByte 1 ≠ devService.bufByte 1) ∧
    Memory.wf devRegular = true ∧ ∃ t, step devRegular = .next t ∧ t.bufByte 0 ≠ devRegular.bufByte 0 :=
  ⟨rfl, by decide, ⟨_, rfl, by decide⟩, by decide, ⟨_, rfl, by decide⟩, by decide, _, rfl, by decide⟩

theorem test_meets_TicksWriteOnlyTheTransmitSide :
    devSending.events = tickWord :: [] ∧ tickWord.kind = KIND_TICK := by decide

theorem test_meets_ReceivingDoesNotTouchTheTransmitSide :
    devPayload.events = rxWord 0x05 :: [] ∧
    ∀ v, (decodeByte devPayload.rxEsc 0x05).1 = .data v →
      ¬(devPayload.rxState = .waitChecksum ∧ devPayload.rxSum + v = 0) := ⟨rfl, fun _ _ h => by cases h.1⟩

theorem test_meets_RepliesArePrimedExactlyWhenDue_primed :
    devService.params.wf = true ∧ devService.events = rxWord 0x28 :: [] ∧ (∃ t, step devService = .next t) ∧
    ∃ v, (decodeByte devService.rxEsc 0x28).1 = .data v ∧ devService.rxState = .waitChecksum ∧
      devService.rxSum + v = 0 ∧ replies devService = true :=
  ⟨by decide, rfl, ⟨_, rfl⟩, 0x28, rfl, rfl, rfl, by decide⟩

theorem test_meets_RepliesArePrimedExactlyWhenDue_not :
    devPayload.params.wf = true ∧ devPayload.events = rxWord 0x05 :: [] ∧ (∃ t, step devPayload = .next t) ∧
    ¬∃ v, (decodeByte devPayload.rxEsc 0x05).1 = .data v ∧ devPayload.rxState = .waitChecksum ∧
      devPayload.rxSum + v = 0 ∧ replies devPayload = true :=
  ⟨by decide, rfl, ⟨_, rfl⟩, fun ⟨_, _, h, _⟩ => by cases h⟩

theorem test_meets_GroupFramesNeverPrime :
    let s := { devRegular with isGrp := true }
    s.events = rxWord 0xBA :: [] ∧ s.isSvc = false ∧ s.isGrp = true ∧ ∃ t, step s = .next t :=
  ⟨rfl, rfl, rfl, _, rfl⟩

theorem test_meets_AddressHasTwoWriters :
    (∃ t, step devService = .next t ∧ t.addr ≠ devService.addr) ∧ 4 ≤ devService.params.bufCap ∧
    ∃ t, step { dev 0x40 with addr := 0x55, events := [resetWord] } = .next t ∧ t.addr ≠ 0x55 :=
  ⟨⟨_, rfl, by decide⟩, by decide, _, rfl, by decide⟩

theorem test_meets_OnlyMarkersWriteTheFrameKind :
    (∃ t, step devPayload = .next t) ∧ ∀ w rest, devPayload.events = w :: rest → w.kind ≠ KIND_RESET ∧
      ¬(w.kind = KIND_RX ∧ devPayload.rxEsc = false ∧ (w.byte = MK_SVC ∨ w.byte = MK_REG ∨ w.byte = MK_GRP)) :=
  ⟨⟨_, rfl⟩, fun w rest h => by
    have hw : w = rxWord 0x05 := by injection h with h _; exact h.symm
    subst hw; decide⟩

theorem test_meets_TicksIgnoreTheReceiveSide :
    let s' := { devSending with rxState := .waitData, rxSum := 9, events := [tickWord + 1] }
    devSending.events = tickWord :: [] ∧ s'.events = (tickWord + 1) :: [] ∧ tickWord.kind = KIND_TICK ∧
    (tickWord + 1).kind = KIND_TICK ∧ devSending.txRegs = s'.txRegs ∧ devSending.addr = s'.addr ∧
    devSending.params.bufCap = s'.params.bufCap ∧ devSending.draws = s'.draws ∧
    (∀ i, devSending.bufByte i = s'.bufByte i) ∧ (∃ t, step devSending = .next t) ∧ ∃ t', step s' = .next t' :=
  ⟨rfl, rfl, by decide, by decide, rfl, rfl, rfl, rfl, fun _ => rfl, ⟨_, rfl⟩, _, rfl⟩

theorem test_meets_ReceivingIgnoresTheTransmitSide :
    let s' := { devRegular with txState := .sendLength, txEsc := true }
    devRegular.events = rxWord 0xBA :: [] ∧ s'.events = rxWord 0xBA :: [] ∧ devRegular.rxRegs = s'.rxRegs ∧
    devRegular.addr = s'.addr ∧ devRegular.params = s'.params ∧ devRegular.draws = s'.draws ∧
    (∀ i, devRegular.bufByte i = s'.bufByte i) ∧ (∃ t, step devRegular = .next t) ∧ (∃ t', step s' = .next t') ∧
    Memory.wf devRegular = true ∧ Memory.wf s' = true :=
  ⟨rfl, rfl, rfl, rfl, rfl, rfl, fun _ => rfl, ⟨_, rfl⟩, ⟨_, rfl⟩, by decide, by decide⟩

theorem test_meets_DanglingEscapeEatsTheMarker :
    let s := { dev 0x40 with rxEsc := true, events := [rxWord Marker.reg.byte] }
    s.rxEsc = true ∧ s.events = rxWord Marker.reg.byte :: [] ∧ s.rxState = .idle ∧ ∃ t, step s = .next t :=
  ⟨rfl, rfl, rfl, _, rfl⟩

theorem test_meets_ChecksumSeesBitFlipsNotOrder :
    List.Perm [(5 : Byte), 7] [7, 5] ∧ [(5 : Byte), 7].length = [(1 : Byte), 0xFF].length ∧
    byteSum [1, 0xFF] = 0 ∧ 7 < 8 := ⟨List.Perm.swap _ _ _, rfl, rfl, by decide⟩

/-- The reply of V84 on the wire: eleven bytes, so eleven ticks, and one tick more. -/
theorem test_meets_PrimedReplyGoesOutOnTheWire :
    let s := { dev 0x40 with
      params := { sample with inCap := 4, outCap := 4 }, txState := .sendStart, txMark := 0x02, txLen := 4,
      buf := [(0, 4), (1, 3), (2, 2), (3, 1)], events := List.replicate 12 tickWord ++ [resetWord] }
    let fields := (s.addr ||| 0x80) :: (4 : Byte) :: (List.range (4 : Byte).toNat).map s.bufByte
    s.txRegs = primedRegs 0x02 4 ∧ (4 : Byte).toNat ≤ s.params.bufCap ∧
    s.events = List.replicate (wireLength (fields ++ [checksumOf fields]) + 1) tickWord ++ [resetWord] :=
  ⟨rfl, by decide, by decide⟩

/-- The requests of V88, V84 and W3 (a group, on masked bits), each on the wire before the device. -/
theorem test_meets_AddressedRequestReachesDispatch :
    let q := Request.svc 0x05 [0x10, 0x00, 0x03]
    let r := Request.reg 0x40 [1, 2, 3, 4]
    let g := Request.grp 0x20 0xF0 [0x07]
    Memory.wf devRegular = true ∧ devRegular.rxEsc = false ∧ q.payload.length ≤ 255 ∧ addressedTo q 0x05 = true ∧
    addressedTo r devRegular.addr = true ∧ addressedTo g 0x2F = true ∧
    ({ devRegular with events := r.wire.map rxWord ++ [tickWord] } : State).events = r.wire.map rxWord ++ [tickWord] ∧
    r.wire = [0x02, 0x40, 0x04, 0x00, 0x05, 0x00, 0x06, 0x00, 0x07, 0x04, 0xB2] ∧
    q.wire = [0x01, 0x05, 0x00, 0x07, 0x10, 0x00, 0x04, 0x00, 0x07, 0xE5] ∧
    g.wire = [0x03, 0x20, 0xF0, 0x00, 0x05, 0x07, 0xE8] := by decide

/-- A request for 0x41, a reply's address and a group that 0x30 is not of (W3, V103). -/
theorem test_meets_RequestForAnotherDeviceIsIgnored :
    let r := Request.reg 0x41 [0x05]
    devRegular.rxEsc = false ∧ r.payload.length ≤ 255 ∧ addressedTo r devRegular.addr = false ∧
    addressedTo (.reg 0xC0 [0x0A]) 0xC0 = false ∧ addressedTo (.grp 0x20 0xF0 [0x07]) 0x30 = false ∧
    ({ devRegular with events := (r.marker.byte :: r.tailWith 0xBA).map rxWord } : State).events =
      (r.marker.byte :: r.tailWith 0xBA).map rxWord ++ [] := by decide

/-- The request of V104: the checksum byte is BB where BA is right. -/
theorem test_meets_WrongChecksumFrameIsNotDispatched :
    let r := Request.reg 0x40 [0x05]
    Memory.wf devRegular = true ∧ devRegular.rxEsc = false ∧ r.payload.length ≤ 255 ∧
    addressedTo r devRegular.addr = true ∧ 0xBB ≠ checksumOf r.body ∧
    ({ devRegular with events := (r.marker.byte :: r.tailWith 0xBB).map rxWord } : State).events =
      (r.marker.byte :: r.tailWith 0xBB).map rxWord ++ [] := by decide

/-- A device that takes a payload byte at the last index of the buffer and sends its reply's byte there, on the second half
of an escape pair or not. -/
def devOverwrite (esc : Bool) (b : Byte) : State := { dev 0x40 with
  rxState := .waitData, rxLen := 5, rxIdx := 3, txState := .sendData, txLen := 4, txIdx := 3, txMark := 0x02,
  txEsc := esc, events := [rxWord b, tickWord] }

theorem test_meets_PayloadByteReplacesTheReplyByte :
    let s := devOverwrite true 0x77
    Memory.wf s = true ∧ s.events = rxWord 0x77 :: tickWord :: [] ∧ tickWord.kind = KIND_TICK ∧
    (decodeByte s.rxEsc 0x77).1 = .data 0x77 ∧ s.rxState = .waitData ∧ s.txState = .sendData ∧ s.txIdx < s.txLen ∧
    s.rxIdx = s.txIdx ∧ s.txIdx.toNat < s.params.bufCap ∧ s.txEsc = true ∧ (devOverwrite false 0x77).txEsc = false ∧
    MK_MAX < (0x77 : Byte) ∧ (decodeByte true 0x07).1 = .data 0x03 ∧ (0x03 : Byte) ≤ MK_MAX := by decide

/-- X4: the payload of a broadcast frame, addressed to 00, in the buffer that the device at 40 replies from. -/
theorem test_broadcast_overwrites_reply : leaves (step { dev 0x40 with
      rxState := .waitData, isGrp := true, grpAddr := 0, rxLen := 1, rxSum := 0x01, txState := .sendData, txLen := 2,
      txSum := 0xC2, txMark := 0x02, buf := [(0, 0x11), (1, 0x22)], events := [rxWord 0x77, tickWord] }) (fun t =>
    t.rxState = .waitChecksum && t.rxSum = 0x78 && t.bufByte 0 = 0x77 &&
    leaves (step t) fun u => u.out.wire = some 0x77 && u.bufByte 1 = 0x22) = true := by decide

/-- R233 and R231: after a dangling escape a frame for 41 is swallowed by the frame in progress, and overwrites. -/
theorem test_swallowed_frame_overwrites_reply : leaves (step { devOverwrite false 0x02 with
      rxEsc := true, rxIdx := 2, events := [rxWord 0x02, rxWord 0x41] }) (fun t =>
    t.bufByte 2 = 0xFE && t.rxState = .waitData &&
    leaves (step t) fun u => u.bufByte 3 = 0x41 && u.txState = .sendData) = true := by decide

/-- R231, R132 and R157: the byte on the line is the payload byte that just arrived. -/
theorem test_payload_replaces_reply_byte : leaves (step (devOverwrite false 0x77)) (fun t =>
    leaves (step t) fun u => u.out.wire = some 0x77 && u.txSum = 0x77 && u.txIdx = 4) = true := by decide

end Sys2Proof.Machine
end

/-! The statements of 00_scope.md: the handler's contract under legal parameters (R8, R178) and what a step runs
(R12, R59). -/

namespace Sys2Proof.Machine

/-! ### The handler's answer (00_scope.md R8; log 4) -/

theorem handlerAnswer_listed {p : Params} {arg : List Byte} {a : Option (List Byte)}
    (h : p.handler.lookup arg = some a) : handlerAnswer p arg = a := by
  simp only [handlerAnswer, h]

theorem handlerAnswer_unlisted {p : Params} {arg : List Byte} (h : p.handler.lookup arg = none) :
    handlerAnswer p arg = some ((List.range p.outCap).map (Config.handlerByte arg)) := by
  simp only [handlerAnswer, h]

/-- An answer found in the table is a row of it, so what is known of every row holds of it. -/
theorem mem_handler_of_lookup {p : Params} {arg : List Byte} {a : Option (List Byte)}
    (h : p.handler.lookup arg = some a) : (arg, a) ∈ p.handler := by
  obtain ⟨before, after, htable, -⟩ := List.lookup_eq_some_iff.1 h
  simp [htable]

/-- Settles O35: a listed answer has the length that legality checks row by row, a free answer has it by construction. -/
theorem legalParametersKeepTheContract : Obligations.LegalParametersKeepTheContract := by
  intro p hp arg
  cases hl : p.handler.lookup arg with
  | some a =>
    obtain ⟨-, -, -, -, -, -, -, hrows⟩ := (params_wf_iff p).1 hp
    obtain ⟨r, hr, hlen⟩ := hrows _ (mem_handler_of_lookup hl)
    exact ⟨r, (handlerAnswer_listed hl).trans hr, hlen⟩
  | none => exact ⟨_, handlerAnswer_unlisted hl, by simp⟩

/-! ### The instruction a step runs (00_scope.md R12, 20_memory.md R59) -/

/-- Whatever the event word decodes to in the state's context, a step runs it on the state that has taken the word. -/
theorem step_of_decode {s : State} {w : EvWord} {rest : List EvWord} {i : Instr} (he : s.events = w :: rest)
    (hd : decode (.ev s.ctx) w = .ok i) : step s = exec i (arrive w rest s) := by
  simp only [step, he, hd]

/-- Settles O12: what the step runs, and all that taking the word changes (`arrive_eq`). -/
theorem stepRunsTheDecodedInstruction : Obligations.StepRunsTheDecodedInstruction :=
  fun s w rest _ he hd => ⟨step_of_decode he hd, arrive_eq w rest s⟩

end Sys2Proof.Machine

/-! The two halves of the engine as functions of their registers (10_state.md R37, sections 3 and 5): what a received byte
does before it writes the buffer or is dispatched, and what a tick does. The statements of 10_state.md below cite these. -/

namespace Sys2Proof.Machine

/-! ### Taking an event word, register by register -/

@[simp] theorem arrive_rxState (w : EvWord) (rest : List EvWord) (s : State) :
    (arrive w rest s).rxState = s.rxState := by rw [arrive_eq]
@[simp] theorem arrive_isSvc (w : EvWord) (rest : List EvWord) (s : State) :
    (arrive w rest s).isSvc = s.isSvc := by rw [arrive_eq]
@[simp] theorem arrive_isGrp (w : EvWord) (rest : List EvWord) (s : State) :
    (arrive w rest s).isGrp = s.isGrp := by rw [arrive_eq]
@[simp] theorem arrive_rxSum (w : EvWord) (rest : List EvWord) (s : State) :
    (arrive w rest s).rxSum = s.rxSum := by rw [arrive_eq]

theorem arrive_rxRegs (w : EvWord) (rest : List EvWord) (s : State) : (arrive w rest s).rxRegs =
    { s.rxRegs with rxEsc := if w.kind = KIND_RX then decide (s.rxEsc = false ∧ w.byte = ESC) else s.rxEsc } := by
  rw [arrive_eq]; rfl

/-! ### A received byte -/

/-- The state with these receive registers. -/
@[simp] def State.withRx (s : State) (r : RxRegs) : State :=
  { s with
    rxState := r.rxState, rxEsc := r.rxEsc, isSvc := r.isSvc, isGrp := r.isGrp, rxSum := r.rxSum,
    grpAddr := r.grpAddr, rxLen := r.rxLen, rxIdx := r.rxIdx }

/-- The receive registers after a byte of class `c`, at device address `a` (42_rx.md). -/
def rxNext (a : Byte) (c : RxClass) (r : RxRegs) : RxRegs :=
  match c with
  | .esc => { r with rxEsc := true }
  | .mark m => { r with rxState := .waitAddress, isSvc := m == .svc, isGrp := m == .grp, rxSum := 0 }
  | .data v =>
    match r.rxState with
    | .idle => r
    | .waitAddress =>
      if hasReplyBit v then { r with rxState := .idle }
      else if r.isGrp then { r with rxState := .waitGroupMask, rxSum := r.rxSum + v, grpAddr := v }
      else if v = a then { r with rxState := .waitLength, rxSum := r.rxSum + v }
      else { r with rxState := .idle }
    | .waitGroupMask =>
      { r with rxState := if groupMatch v r.grpAddr a then .waitLength else .idle, rxSum := r.rxSum + v }
    | .waitLength =>
      { r with rxState := if v = 0 then .waitChecksum else .waitData, rxSum := r.rxSum + v, rxLen := v, rxIdx := 0 }
    | .waitData =>
      { r with
        rxState := if r.rxIdx + 1 = r.rxLen then .waitChecksum else .waitData
        rxSum := r.rxSum + v
        rxIdx := r.rxIdx + 1 }
    | .waitChecksum => { r with rxState := .idle, rxSum := r.rxSum + v }

/-- The labels of that byte, but for those of a dispatch, at `cap` bytes of buffer. -/
def rxLabels (a : Byte) (cap : Nat) (c : RxClass) (r : RxRegs) : List Label :=
  match c with
  | .esc => []
  | .mark _ => if r.rxState = .idle then [] else [.resync]
  | .data v =>
    match r.rxState with
    | .idle | .waitLength => []
    | .waitAddress =>
      if hasReplyBit v then [.replyOverheard]
      else if r.isGrp then []
      else if v = a then [] else [.addrMismatch]
    | .waitGroupMask => if groupMatch v r.grpAddr a then [] else [.groupMismatch]
    | .waitData => if r.rxIdx.toNat < cap then [] else [.overflowDrop]
    | .waitChecksum => if r.rxSum + v = 0 then [] else [.checksumFail]

/-- The state after a byte of class `c`, before it is stored or dispatched. -/
def afterRx (c : RxClass) (s : State) : State :=
  { s.withRx (rxNext s.addr c s.rxRegs) with
    out := { s.out with labels := s.out.labels ++ rxLabels s.addr s.params.bufCap c s.rxRegs } }

/-- What a byte of class `c` does: in WaitData it is stored, in WaitChecksum with a sum of zero the frame is
dispatched, and otherwise only registers and labels change. -/
def rxStep (c : RxClass) (s : State) : Result :=
  match c with
  | .esc | .mark _ => .next (afterRx c s)
  | .data v =>
    match s.rxState with
    | .waitData => .next (memWrite s.rxIdx.toNat v (afterRx c s))
    | .waitChecksum => if s.rxSum + v = 0 then dispatch (afterRx c s) else .next (afterRx c s)
    | _ => .next (afterRx c s)

@[simp] theorem afterRx_addr (c : RxClass) (s : State) : (afterRx c s).addr = s.addr := rfl
@[simp] theorem afterRx_params (c : RxClass) (s : State) : (afterRx c s).params = s.params := rfl
@[simp] theorem afterRx_bufInit (c : RxClass) (s : State) : (afterRx c s).bufInit = s.bufInit := rfl
@[simp] theorem afterRx_draws (c : RxClass) (s : State) : (afterRx c s).draws = s.draws := rfl
@[simp] theorem afterRx_wf (c : RxClass) (s : State) : Memory.wf (afterRx c s) = Memory.wf s := rfl
@[simp] theorem afterRx_bufByte (c : RxClass) (s : State) (i : Nat) : (afterRx c s).bufByte i = s.bufByte i := rfl
@[simp] theorem afterRx_txRegs (c : RxClass) (s : State) : (afterRx c s).txRegs = s.txRegs := rfl
@[simp] theorem afterRx_rxRegs (c : RxClass) (s : State) : (afterRx c s).rxRegs = rxNext s.addr c s.rxRegs := rfl
@[simp] theorem afterRx_out (c : RxClass) (s : State) : (afterRx c s).out =
    { s.out with labels := s.out.labels ++ rxLabels s.addr s.params.bufCap c s.rxRegs } := rfl

/-- Adding to the receive sum, as a record update. -/
theorem csumAdd_rx_eq (v : Byte) (s : State) : csumAdd .rx v s = { s with rxSum := s.rxSum + v } := rfl

/-- A start marker in any state (R121). -/
theorem rxMarker_eq (m : Marker) (s : State) : rxMarker m s = afterRx (.mark m) s := by
  by_cases h : s.rxState = .idle <;>
    simp [rxMarker, afterRx, rxNext, rxLabels, State.rxRegs, h, label, setFrameKind, csumInit, setAccum]

/-- A data byte in each receive state (R126 to R133). -/
theorem exec_classifyData {c : Ctx} {s : State} (v : Byte) (hst : c.rxState = s.rxState) (hg : c.isGrp = s.isGrp) :
    exec (classifyData c v) s = rxStep (.data v) s := by
  unfold classifyData rxStep
  rw [hst, hg]
  cases hs : s.rxState with
  | idle =>
    simp only [exec, execRxIdleData, afterRx, rxNext, rxLabels, State.rxRegs, hs, State.withRx, List.append_nil]
    rw [← hs]
  | waitAddress =>
    by_cases hr : hasReplyBit v = true
    · simp [exec, execRxAddrReply, afterRx, rxNext, rxLabels, State.rxRegs, hs, hr, discard, label]
    by_cases hgrp : s.isGrp = true
    · simp [exec, execRxAddrGrp, afterRx, rxNext, rxLabels, State.rxRegs, hs, hr, hgrp, csumAdd_rx_eq]
    obtain rfl | ha := eq_or_ne v s.addr
    · simp [exec, execRxAddrUni, afterRx, rxNext, rxLabels, State.rxRegs, hs, hr, hgrp, csumAdd_rx_eq]
    · simp [exec, execRxAddrUni, afterRx, rxNext, rxLabels, State.rxRegs, hs, hr, hgrp, ha, discard, label]
  | waitGroupMask =>
    by_cases hm : groupMatch v s.grpAddr s.addr = true
    · simp [exec, execRxGmask, afterRx, rxNext, rxLabels, State.rxRegs, hs, hm, csumAdd_rx_eq]
    · simp [exec, execRxGmask, afterRx, rxNext, rxLabels, State.rxRegs, hs, hm, csumAdd_rx_eq, discard, label]
  | waitLength => simp [exec, execRxLen, afterRx, rxNext, rxLabels, State.rxRegs, hs, csumAdd_rx_eq]
  | waitData =>
    by_cases hc : s.rxIdx.toNat < s.params.bufCap
    · simp [exec, execRxData, afterRx, rxNext, rxLabels, State.rxRegs, hs, hc, csumAdd_rx_eq, memWrite]
    · simp [exec, execRxData, afterRx, rxNext, rxLabels, State.rxRegs, hs, hc, csumAdd_rx_eq, memWrite, label]
  | waitChecksum =>
    by_cases hz : s.rxSum + v = 0#8
    · simp [exec, execRxCsum, csumCheck, accumValue, afterRx, rxNext, rxLabels, State.rxRegs, hs, hz, csumAdd_rx_eq]
    · simp [exec, execRxCsum, csumCheck, accumValue, afterRx, rxNext, rxLabels, State.rxRegs, hs, hz, csumAdd_rx_eq,
        label]

/-- Every received byte, read in a context of its receive state and frame kind, does what its class does (R120). -/
theorem exec_decodeRx {c : Ctx} {s : State} (b : Byte) (hst : c.rxState = s.rxState) (hg : c.isGrp = s.isGrp) :
    exec (decodeRx c b) s = rxStep (decodeByte c.rxEsc b).1 s := by
  unfold decodeRx
  cases (decodeByte c.rxEsc b).1 with
  | esc => simp [exec, execRxEsc, rxStep, afterRx, rxNext, rxLabels, State.rxRegs]
  | mark m => cases m <;> exact congrArg Host.Outcome.next (rxMarker_eq _ s)
  | data v => exact exec_classifyData v hst hg

/-! ### A tick -/

/-- The state with these transmit registers. -/
@[simp] def State.withTx (s : State) (x : TxRegs) : State :=
  { s with
    txState := x.txState, txEsc := x.txEsc, txSum := x.txSum, txLen := x.txLen, txIdx := x.txIdx, txMark := x.txMark }

/-- The transmit registers `x` after a tick that sends logical byte `v`, and the wire byte (R100, R153): the registers
become `y` when the byte is complete. -/
def txSend (v : Byte) (x y : TxRegs) : TxRegs × Option Byte :=
  if x.txEsc then ({ y with txEsc := false }, some (v + SHIFT))
  else if v ≤ MK_MAX then ({ x with txEsc := true }, some ESC)
  else ({ y with txEsc := false }, some v)

/-- The transmit registers after a tick and its wire byte, at device address `a` when the buffer reads `d` at `txIdx`
(43_tx.md R150 to R158). -/
def txNext (a d : Byte) (x : TxRegs) : TxRegs × Option Byte :=
  match x.txState with
  | .idle => (x, none)
  | .sendStart => ({ x with txState := .sendAddress }, some x.txMark)
  | .sendAddress =>
    txSend (replyAddress a) x { x with txState := .sendLength, txSum := x.txSum + replyAddress a }
  | .sendLength => txSend x.txLen x { x with txState := .sendData, txSum := x.txSum + x.txLen }
  | .sendData =>
    if x.txIdx < x.txLen then txSend d x { x with txIdx := x.txIdx + 1, txSum := x.txSum + d }
    else txSend (-x.txSum) x { x with txState := .idle }

/-- The state after a tick, when the draw counter becomes `k`. -/
def afterTx (d : Byte) (k : Nat) (s : State) : State :=
  { s.withTx (txNext s.addr d s.txRegs).1 with
    out := { s.out with wire := (txNext s.addr d s.txRegs).2.or s.out.wire }, draws := k }

theorem afterTx_txRegs (d : Byte) (k : Nat) (s : State) : (afterTx d k s).txRegs = (txNext s.addr d s.txRegs).1 := rfl
theorem afterTx_out (d : Byte) (k : Nat) (s : State) : (afterTx d k s).out =
    { s.out with wire := (txNext s.addr d s.txRegs).2.or s.out.wire } := rfl

/-- A byte always leaves something on the wire. -/
theorem txSend_or (v : Byte) (x y : TxRegs) (o : Option Byte) : (txSend v x y).2.or o = (txSend v x y).2 := by
  unfold txSend
  split_ifs <;> rfl

/-- TxByte and what its caller does when the byte is complete (R153): `f` takes the registers to `y`. -/
theorem txByte_then {v : Byte} {addSum : Bool} {s : State} {f : State → State} (y : TxRegs)
    (hf : ∀ o, f { s with txEsc := false, txSum := if addSum then s.txSum + v else s.txSum, out := o } =
      { s.withTx { y with txEsc := false } with out := o }) :
    (if (txByte v addSum s).1 then f (txByte v addSum s).2 else (txByte v addSum s).2) =
      { s.withTx (txSend v s.txRegs y).1 with
        out := { s.out with wire := (txSend v s.txRegs y).2.or s.out.wire } } := by
  rw [txSend_or]
  cases he : s.txEsc
  · by_cases hv : v ≤ MK_MAX
    · simp [txByte, encodeStep, txSend, State.txRegs, he, hv, emit]
    · cases addSum <;>
        simpa [txByte, encodeStep, txSend, he, hv, State.txRegs, emit, csumAdd, setAccum, accumValue] using hf _
  · cases addSum <;>
      simpa [txByte, encodeStep, txSend, he, State.txRegs, emit, csumAdd, setAccum, accumValue] using hf _

/-- Every tick, read in a context of its transmit registers (R150). -/
theorem exec_decodeTick {c : Ctx} {s : State} (hst : c.txState = s.txState)
    (hm : c.txMore = decide (s.txIdx < s.txLen)) :
    ∃ k, exec (decodeTick c) s = .next (afterTx (memRead s.txIdx.toNat s).1 k s) := by
  unfold decodeTick afterTx
  rw [hst, hm]
  cases hs : s.txState with
  | idle =>
    refine ⟨s.draws, ?_⟩
    simp only [exec, execTxIdle, txNext, State.txRegs, hs, State.withTx, Option.none_or]
    rw [← hs]
  | sendStart => exact ⟨s.draws, by simp [exec, execTxStart, txNext, State.txRegs, hs, emit]⟩
  | sendAddress =>
    refine ⟨s.draws, ?_⟩
    simp only [exec, execTxAddr, txNext, State.txRegs, hs]
    rw [txByte_then (f := fun t => { t with txState := .sendLength })
      { s.txRegs with txState := .sendLength, txSum := s.txSum + replyAddress s.addr } fun _ => rfl]
    simp [State.txRegs, hs]
  | sendLength =>
    refine ⟨s.draws, ?_⟩
    simp only [exec, execTxLen, txNext, State.txRegs, hs]
    rw [txByte_then (f := fun t => { t with txState := .sendData })
      { s.txRegs with txState := .sendData, txSum := s.txSum + s.txLen } fun _ => rfl]
    simp [State.txRegs, hs]
  | sendData =>
    by_cases hl : s.txIdx < s.txLen
    · obtain ⟨k, hk⟩ := memRead_draws s.txIdx.toNat s
      refine ⟨k, ?_⟩
      simp only [exec, execTxData, txNext, State.txRegs, hs, hl, hk, decide_true, if_true]
      rw [txByte_then (f := fun t => { t with txIdx := t.txIdx + 1 })
        { s.txRegs with
          txState := .sendData, txIdx := s.txIdx + 1, txSum := s.txSum + (memRead s.txIdx.toNat s).1 } fun _ => rfl]
      simp [State.txRegs]
    · refine ⟨s.draws, ?_⟩
      simp only [exec, execTxCsum, txNext, State.txRegs, hs, hl, decide_false, if_false, Bool.false_eq_true]
      rw [txByte_then (f := fun t => { t with txState := .idle }) { s.txRegs with txState := .idle } fun _ => rfl]
      simp [State.txRegs, hs, csumFinal, accumValue]

/-! ### What a step can do -/

/-- A step on a received byte, by the byte's class (R120). -/
theorem step_eq_rxStep {s : State} {w : EvWord} {rest : List EvWord} (he : s.events = w :: rest)
    (hk : w.kind = KIND_RX) : step s = rxStep (decodeByte s.rxEsc w.byte).1 (arrive w rest s) := by
  rw [step_rx he hk]
  exact exec_decodeRx w.byte (by simp [State.ctx, arrive_eq]) (by simp [State.ctx, arrive_eq])

/-- A step on a tick (R150): it always goes on, and the byte it may send from the buffer is the one at `txIdx`. -/
theorem step_eq_afterTx {s : State} {w : EvWord} {rest : List EvWord} (he : s.events = w :: rest)
    (hk : w.kind = KIND_TICK) :
    ∃ k, step s = .next (afterTx (memRead s.txIdx.toNat s).1 k (arrive w rest s)) := by
  rw [step_tick he hk]
  obtain ⟨k, hx⟩ := exec_decodeTick (c := s.ctx) (s := arrive w rest s)
    (by simp [State.ctx, arrive_eq]) (by simp [State.ctx, arrive_eq])
  refine ⟨k, hx.trans ?_⟩
  have hd : (memRead (arrive w rest s).txIdx.toNat (arrive w rest s)).1 = (memRead s.txIdx.toNat s).1 := by
    have hidx : (arrive w rest s).txIdx = s.txIdx := by rw [arrive_eq]
    rw [hidx]
    simp only [memRead, arrive_params, arrive_bufByte, arrive_draws]
    split <;> rfl
  rw [hd]

/-- Everything a step that goes on can be (00_scope.md R12, 70_reset_and_hazards.md R239). -/
theorem step_cases {s t : State} (h : step s = .next t) :
    (s.events = [] ∧ t = idleStep s) ∨
    ∃ w rest, s.events = w :: rest ∧
      (w.kind = KIND_RX ∧ rxStep (decodeByte s.rxEsc w.byte).1 (arrive w rest s) = .next t ∨
        w.kind = KIND_TICK ∧ (∃ d k, t = afterTx d k (arrive w rest s)) ∨
        w.kind = KIND_RESET ∧ exec .reset (arrive w rest s) = .next t) := by
  cases he : s.events with
  | nil =>
    left
    simp only [step, he] at h
    exact ⟨rfl, by injection h with h; exact h.symm⟩
  | cons w rest =>
    right
    refine ⟨w, rest, rfl, ?_⟩
    rcases kind_cases w.kind with hk | hk | hk | hk
    · exact .inl ⟨hk, step_eq_rxStep he hk ▸ h⟩
    · obtain ⟨k, hx⟩ := step_eq_afterTx he hk
      rw [hx] at h
      injection h with h
      exact .inr (.inl ⟨hk, _, k, h.symm⟩)
    · exact .inr (.inr ⟨hk, step_reset he hk ▸ h⟩)
    · simp [step, he, decode, hk, KIND_RX, KIND_TICK, KIND_RESET] at h

/-- Everything a received byte can do: change registers and labels, then store it or dispatch the frame (R120). -/
theorem rxStep_cases {c : RxClass} {s t : State} (h : rxStep c s = .next t) :
    t = afterRx c s ∨
    (∃ v, c = .data v ∧ s.rxState = .waitData ∧ t = memWrite s.rxIdx.toNat v (afterRx c s)) ∨
    (∃ v, c = .data v ∧ s.rxState = .waitChecksum ∧ s.rxSum + v = 0 ∧ dispatch (afterRx c s) = .next t) := by
  unfold rxStep at h
  split at h
  · injection h with h; exact .inl h.symm
  · injection h with h; exact .inl h.symm
  next v =>
    split at h
    next hs => injection h with h; exact .inr (.inl ⟨v, rfl, hs, h.symm⟩)
    next hs =>
      split at h
      next hz => exact .inr (.inr ⟨v, rfl, hs, hz, h⟩)
      · injection h with h; exact .inl h.symm
    · injection h with h; exact .inl h.symm

/-! ### What a dispatch can do -/

/-- The state with these values of the address, the store, the ports `store` and `hcall` and the draw counter: what a
dispatch writes before it stores its answer. -/
@[simp] def State.withPorts (s : State) (a r : Byte) (st : Option Byte) (hc : Option (List Byte)) (k : Nat) : State :=
  { s with addr := a, storeRdata := r, out := { s.out with store := st, hcall := hc }, draws := k }

/-- The address a dispatch leaves: the old one, or in a service frame the one it persists (10_state.md R22). -/
def AddressKeptOrPersisted (s : State) (a : Byte) (st : Option Byte) : Prop :=
  a = s.addr ∨ s.isSvc = true ∧ st = some a

/-- Everything a dispatch can do, in one form (44_dispatch.md R170 to R177): ports and address, then an answer stored from
index 0 on, a label, and possibly a reply primed with the service or the regular marker. -/
theorem dispatch_form {s t : State} (h : dispatch s = .next t) :
    ∃ a r st hc k bs l, AddressKeptOrPersisted s a st ∧
      (t = label l (memWriteList bs 0 (s.withPorts a r st hc k)) ∨
        ∃ m n, (m = MK_SVC ∨ m = MK_REG) ∧ t = prime m n (label l (memWriteList bs 0 (s.withPorts a r st hc k)))) := by
  rcases dispatch_cases h with
    ⟨hsvc, k, rfl | rfl | rfl | rfl | ⟨n, r0, r1, rfl⟩⟩ | ⟨-, p, r, k, -, ⟨-, rfl⟩ | ⟨-, rfl⟩⟩
  · exact ⟨s.addr, s.storeRdata, s.out.store, s.out.hcall, k, [], _, .inl rfl, .inr ⟨MK_SVC, s.rxLen, .inl rfl, rfl⟩⟩
  · exact ⟨s.addr, s.storeRdata, s.out.store, s.out.hcall, k, [capByte s.params.inCap, capByte s.params.outCap], _,
      .inl rfl, .inr ⟨MK_SVC, 2, .inl rfl, rfl⟩⟩
  · exact ⟨s.addr, s.storeRdata, s.out.store, s.out.hcall, k, [], _, .inl rfl, .inl rfl⟩
  · exact ⟨s.addr, s.storeRdata, s.out.store, s.out.hcall, k, [], _, .inl rfl, .inl rfl⟩
  · exact ⟨n, n, some n, s.out.hcall, k, [r0, r1], _, .inr ⟨hsvc, rfl⟩, .inr ⟨MK_SVC, 2, .inl rfl, rfl⟩⟩
  · exact ⟨s.addr, s.storeRdata, s.out.store, some p, k, r, _, .inl rfl, .inl rfl⟩
  · exact ⟨s.addr, s.storeRdata, s.out.store, some p, k, r, _, .inl rfl, .inr ⟨MK_REG, _, .inr rfl, rfl⟩⟩

/-- What no dispatch changes, and its one label. -/
theorem dispatch_frame {s t : State} (h : dispatch s = .next t) :
    t.rxRegs = s.rxRegs ∧ t.params = s.params ∧ t.bufInit = s.bufInit ∧ t.out.wire = s.out.wire ∧
      ∃ l, t.out.labels = s.out.labels ++ [l] := by
  obtain ⟨a, r, st, hc, k, bs, l, -, rfl | ⟨m, n, -, rfl⟩⟩ := dispatch_form h <;>
    exact ⟨by simp [State.rxRegs], by simp, by simp, by simp, l, by simp⟩

/-- A dispatch keeps the canonical form of the buffer. -/
theorem dispatch_wf {s t : State} (h : dispatch s = .next t) (hw : Memory.wf s = true) : Memory.wf t = true := by
  obtain ⟨a, r, st, hc, k, bs, l, -, rfl | ⟨m, n, -, rfl⟩⟩ := dispatch_form h <;>
    exact memWriteList_wf (s := s.withPorts a r st hc k) hw

/-- A dispatch leaves the transmit registers alone or primes a reply (44_dispatch.md R179). -/
theorem dispatch_txRegs {s t : State} (h : dispatch s = .next t) :
    t.txRegs = s.txRegs ∨ ∃ m n, (m = MK_SVC ∨ m = MK_REG) ∧ t.txRegs = primedRegs m n := by
  obtain ⟨a, r, st, hc, k, bs, l, -, rfl | ⟨m, n, hm, rfl⟩⟩ := dispatch_form h
  · exact .inl (by simp [State.txRegs])
  · exact .inr ⟨m, n, hm, rfl⟩

/-- A dispatch changes the address only in a service frame, and then persists it (10_state.md R22). -/
theorem dispatch_addr {s t : State} (h : dispatch s = .next t) (ha : t.addr ≠ s.addr) :
    s.isSvc = true ∧ t.out.store = some t.addr := by
  obtain ⟨a, r, st, hc, k, bs, l, hkept | ⟨hsvc, rfl⟩, rfl | ⟨m, n, -, rfl⟩⟩ := dispatch_form h
  · simp [hkept] at ha
  · simp [hkept] at ha
  · exact ⟨hsvc, by simp⟩
  · exact ⟨hsvc, by simp⟩

/-- Whatever the byte, the receive registers after it are those of `rxNext`: a dispatch writes none of them. -/
theorem rxStep_rxRegs {c : RxClass} {s t : State} (h : rxStep c s = .next t) : t.rxRegs = rxNext s.addr c s.rxRegs := by
  rcases rxStep_cases h with rfl | ⟨v, -, -, rfl⟩ | ⟨v, -, -, -, hd⟩
  · rfl
  · simp
  · exact (dispatch_frame hd).1

end Sys2Proof.Machine

/-! The statements of 10_state.md: the state after reset and the invariant (R38, R39), what each event writes (R22, R25,
R37, R40). -/

namespace Sys2Proof.Machine

/-! ### The invariant (10_state.md R38) -/

/-- The clauses of `EngineInv` over the receive registers. -/
structure RxInv (r : RxRegs) : Prop where
  kinds : ¬(r.isSvc = true ∧ r.isGrp = true)
  rxCount : r.rxState = .waitData → r.rxIdx < r.rxLen ∧ 1 ≤ r.rxLen.toNat
  groupMask : r.rxState = .waitGroupMask → r.isGrp = true

/-- The clauses of `EngineInv` over the transmit registers. -/
structure TxInv (x : TxRegs) : Prop where
  unstarted : x.txState = .sendStart ∨ x.txState = .sendAddress ∨ x.txState = .sendLength → x.txIdx = 0
  txCount : x.txState = .sendData → x.txIdx ≤ x.txLen
  escPlace : x.txEsc = true → x.txState = .sendLength ∨ x.txState = .sendData
  marker : x.txState ≠ .idle → x.txMark = MK_SVC ∨ x.txMark = MK_REG

/-- The clauses of `EngineInv` over the buffer and the parameters. -/
structure BufInv (s : State) : Prop where
  canonical : Memory.wf s = true
  drawn : s.bufInit.length = s.params.bufCap
  legal : s.params.wf = true

/-- The invariant speaks of the two register groups apart (R37), and of the buffer. -/
theorem engineInv_iff (s : State) : EngineInv s ↔ RxInv s.rxRegs ∧ TxInv s.txRegs ∧ BufInv s :=
  ⟨fun h => ⟨⟨h.kinds, h.rxCount, h.groupMask⟩, ⟨h.unstarted, h.txCount, h.escPlace, h.marker⟩,
      ⟨h.canonical, h.drawn, h.legal⟩⟩,
    fun ⟨hr, hx, hb⟩ => ⟨hr.kinds, hr.rxCount, hr.groupMask, hx.unstarted, hx.txCount, hx.escPlace, hx.marker,
      hb.canonical, hb.drawn, hb.legal⟩⟩

/-- Counting one payload byte keeps the count below the length unless it was the last. -/
theorem byte_succ_lt {i n : Byte} (h : i < n) (hne : i + 1 ≠ n) : i + 1 < n := by bv_omega

/-- Every received byte keeps the receive clauses. -/
theorem rxNext_inv (a : Byte) (c : RxClass) {r : RxRegs} (h : RxInv r) : RxInv (rxNext a c r) := by
  obtain ⟨hkinds, hcount, hmask⟩ := h
  cases c with
  | esc => exact ⟨hkinds, hcount, hmask⟩
  | mark m => exact ⟨by cases m <;> simp [rxNext], by simp [rxNext], by simp [rxNext]⟩
  | data v =>
    unfold rxNext
    cases hs : r.rxState with
    | idle => exact ⟨hkinds, hcount, hmask⟩
    | waitAddress =>
      dsimp only
      split_ifs with hr hg hv
      · exact ⟨hkinds, by simp, by simp⟩
      · exact ⟨hkinds, by simp, fun _ => hg⟩
      · exact ⟨hkinds, by simp, by simp⟩
      · exact ⟨hkinds, by simp, by simp⟩
    | waitGroupMask => exact ⟨hkinds, by dsimp only; split_ifs <;> simp, by dsimp only; split_ifs <;> simp⟩
    | waitLength =>
      refine ⟨hkinds, ?_, by dsimp only; split_ifs <;> simp⟩
      dsimp only
      split_ifs with hv
      · simp
      · intro _
        bv_omega
    | waitData =>
      refine ⟨hkinds, ?_, by dsimp only; split_ifs <;> simp⟩
      obtain ⟨hlt, hlen⟩ := hcount hs
      dsimp only
      split_ifs with hlast
      · simp
      · exact fun _ => ⟨byte_succ_lt hlt hlast, hlen⟩
    | waitChecksum => exact ⟨hkinds, by simp, by simp⟩

/-- A reply's address byte has bit 7 set, so it is never escaped (43_tx.md R155). -/
theorem replyAddress_not_escaped (a : Byte) : ¬replyAddress a ≤ MK_MAX := by
  revert a; decide

/-- Sending a byte keeps the transmit clauses if its completion does and an escape may be pending here. -/
theorem txSend_inv {v : Byte} {x y : TxRegs} (hx : TxInv x) (hy : TxInv { y with txEsc := false })
    (hs : ¬v ≤ MK_MAX ∨ x.txState = .sendLength ∨ x.txState = .sendData) : TxInv (txSend v x y).1 := by
  unfold txSend
  split_ifs with he hv
  · exact hy
  · exact ⟨hx.unstarted, hx.txCount, fun _ => hs.resolve_left (not_not_intro hv), hx.marker⟩
  · exact hy

/-- Every tick keeps the transmit clauses. -/
theorem txNext_inv (a d : Byte) {x : TxRegs} (h : TxInv x) : TxInv (txNext a d x).1 := by
  have ⟨hun, hcount, hesc, hmark⟩ := h
  unfold txNext
  cases hs : x.txState with
  | idle => exact h
  | sendStart =>
    exact ⟨fun _ => hun (.inl hs), by simp, fun he => by simpa [hs] using hesc he, fun _ => hmark (by simp [hs])⟩
  | sendAddress =>
    exact txSend_inv h ⟨fun _ => hun (.inr (.inl hs)), by simp, by simp, fun _ => hmark (by simp [hs])⟩
      (.inl (replyAddress_not_escaped a))
  | sendLength =>
    have hidx : x.txIdx = 0 := hun (.inr (.inr hs))
    exact txSend_inv h ⟨by simp, fun _ => by dsimp only; bv_omega, by simp, fun _ => hmark (by simp [hs])⟩
      (.inr (.inl hs))
  | sendData =>
    dsimp only
    split_ifs with hl
    · exact txSend_inv h ⟨by simp, fun _ => by dsimp only; bv_omega, by simp, fun _ => hmark (by simp [hs])⟩
        (.inr (.inr hs))
    · exact txSend_inv h ⟨by simp, by simp, by simp, by simp⟩ (.inr (.inr hs))

/-- A primed reply has the transmit clauses (43_tx.md R151). -/
theorem primedRegs_inv {m : Byte} (n : Byte) (hm : m = MK_SVC ∨ m = MK_REG) : TxInv (primedRegs m n) :=
  ⟨fun _ => rfl, by simp [primedRegs], by simp [primedRegs], fun _ => hm⟩

/-- Taking an event word keeps the invariant: no clause reads `rxEsc`, the port or the outputs. -/
theorem arrive_inv {s : State} (w : EvWord) (rest : List EvWord) (h : EngineInv s) : EngineInv (arrive w rest s) := by
  rw [arrive_eq]
  exact ⟨h.kinds, h.rxCount, h.groupMask, h.unstarted, h.txCount, h.escPlace, h.marker, h.canonical, h.drawn, h.legal⟩

/-- Every received byte keeps the invariant. -/
theorem rxStep_inv {c : RxClass} {s t : State} (hs : EngineInv s) (h : rxStep c s = .next t) : EngineInv t := by
  obtain ⟨hrx, htx, hcan, hdrawn, hlegal⟩ := (engineInv_iff s).1 hs
  refine (engineInv_iff t).2 ⟨rxStep_rxRegs h ▸ rxNext_inv _ _ hrx, ?_⟩
  rcases rxStep_cases h with rfl | ⟨v, -, -, rfl⟩ | ⟨v, -, -, -, hd⟩
  · exact ⟨htx, hcan, hdrawn, hlegal⟩
  · exact ⟨by simpa using htx, memWrite_wf hcan, by simpa using hdrawn, by simpa using hlegal⟩
  · obtain ⟨-, hparams, hinit, -⟩ := dispatch_frame hd
    refine ⟨?_, dispatch_wf hd hcan, by rw [hparams, hinit]; exact hdrawn, by rw [hparams]; exact hlegal⟩
    rcases dispatch_txRegs hd with hkeep | ⟨m, n, hm, hprimed⟩
    · rw [hkeep]; exact htx
    · rw [hprimed]; exact primedRegs_inv n hm

/-- Every tick keeps the invariant. -/
theorem afterTx_inv {s : State} (d : Byte) (k : Nat) (hs : EngineInv s) : EngineInv (afterTx d k s) := by
  obtain ⟨hrx, htx, hcan, hdrawn, hlegal⟩ := (engineInv_iff s).1 hs
  exact (engineInv_iff _).2 ⟨hrx, txNext_inv _ _ htx, hcan, hdrawn, hlegal⟩

/-- A draw has a byte for every index below BUF_CAP. -/
theorem drawBuffer_length (cap k : Nat) : (drawBuffer cap k).length = cap := by simp [drawBuffer]

/-- The Reset event leaves a state with the invariant if the parameters are legal. -/
theorem execReset_inv {s t : State} (hp : s.params.wf = true) (h : exec .reset s = .next t) : EngineInv t := by
  injection h with h
  subst h
  exact (engineInv_iff _).2 ⟨⟨by simp [State.rxRegs], nofun, nofun⟩,
    ⟨by simp [State.txRegs], nofun, nofun, by simp [State.txRegs]⟩, rfl, drawBuffer_length _ _, hp⟩

/-- Settles O11: each of the three kinds of event keeps the invariant, and so does a step without one. -/
theorem everyStepKeepsInvariant : Obligations.EveryStepKeepsInvariant := by
  intro s t hs h
  rcases step_cases h with ⟨-, rfl⟩ | ⟨w, rest, -, ⟨-, hrx⟩ | ⟨-, d, k, rfl⟩ | ⟨-, hreset⟩⟩
  · exact ⟨hs.kinds, hs.rxCount, hs.groupMask, hs.unstarted, hs.txCount, hs.escPlace, hs.marker, hs.canonical,
      hs.drawn, hs.legal⟩
  · exact rxStep_inv (arrive_inv w rest hs) hrx
  · exact afterTx_inv d k (arrive_inv w rest hs)
  · exact execReset_inv (arrive_inv w rest hs).legal hreset

/-! ### The state after reset (10_state.md R39) -/

/-- Below BUF_CAP the reset draw is the free byte of its number (70_reset_and_hazards.md R220). -/
theorem unlistedByte_drawBuffer {cap i : Nat} (k : Nat) (hi : i < cap) :
    unlistedByte (drawBuffer cap k) i = Config.bufInit k i := by
  simp [unlistedByte, drawBuffer, hi]

/-- Settles O7: the registers by their values in `State.resetWith`, the buffer because it lists no byte of its own. -/
theorem resetStateHoldsTheSpecsValues : Obligations.ResetStateHoldsTheSpecsValues :=
  ⟨rfl, rfl, rfl, rfl, rfl, rfl, rfl, rfl, rfl, fun _ hi => unlistedByte_drawBuffer 0 hi⟩

/-- Settles O10: in Idle no clause reads an unspecified register, the buffer lists no byte, and the board is legal. -/
theorem resetStateHasInvariant : Obligations.ResetStateHasInvariant :=
  (engineInv_iff _).2 ⟨⟨nofun, nofun, nofun⟩, ⟨fun _ => rfl, nofun, nofun, fun h => absurd rfl h⟩,
    ⟨rfl, drawBuffer_length _ _, Config.board.legal⟩⟩

/-! ### The outputs (10_state.md R40, 60_exceptions.md R204) -/

/-- A received byte has at most one label of its own. -/
theorem rxLabels_length (a : Byte) (cap : Nat) (c : RxClass) (r : RxRegs) : (rxLabels a cap c r).length ≤ 1 := by
  unfold rxLabels
  (repeat' split) <;> simp

/-- The checksum byte of a frame that passes has none: its label is the dispatch's. -/
theorem rxLabels_of_pass (a : Byte) (cap : Nat) {v : Byte} {r : RxRegs} (hs : r.rxState = .waitChecksum)
    (hz : r.rxSum + v = 0) : rxLabels a cap (.data v) r = [] := by
  simp only [rxLabels, hs, hz, if_true]

/-- A received byte puts nothing on the wire and adds at most one label. -/
theorem rxStep_out {c : RxClass} {s t : State} (h : rxStep c s = .next t) :
    t.out.wire = s.out.wire ∧ t.out.labels.length ≤ s.out.labels.length + 1 := by
  have hl := rxLabels_length s.addr s.params.bufCap c s.rxRegs
  rcases rxStep_cases h with rfl | ⟨v, -, -, rfl⟩ | ⟨v, rfl, hs, hz, hd⟩
  · simpa using hl
  · simpa using hl
  · obtain ⟨-, -, -, hwire, l, hlabels⟩ := dispatch_frame hd
    have hnone := rxLabels_of_pass s.addr s.params.bufCap (r := s.rxRegs) hs hz
    exact ⟨hwire, by simp [hlabels, hnone]⟩

/-- Settles O15: a received byte sends nothing, a tick raises nothing else, and a Reset or an idle step leaves the emptied
record as it is. -/
theorem outputsFireOnTheirEvents : Obligations.OutputsFireOnTheirEvents := by
  intro s t h
  rcases step_cases h with ⟨-, rfl⟩ | ⟨w, rest, he, ⟨hk, hrx⟩ | ⟨hk, d, k, rfl⟩ | ⟨-, hreset⟩⟩
  · simp [idleStep]
  · obtain ⟨hwire, hlabels⟩ := rxStep_out hrx
    exact ⟨fun hne => absurd hwire (by simpa using hne), fun _ => ⟨w, rest, he, hk⟩, by simpa using hlabels⟩
  · exact ⟨fun _ => ⟨w, rest, he, hk⟩, by simp [afterTx], by simp [afterTx]⟩
  · injection hreset with hreset
    simp [← hreset]

/-! ### The writers of the address (10_state.md R22) -/

/-- With four bytes of buffer, a dispatch that changes the address finds a ChangeAddress that validates (44_dispatch.md
R176). -/
theorem dispatch_addr_inRange {s t : State} (h4 : 4 ≤ s.params.bufCap) (h : dispatch s = .next t)
    (ha : t.addr ≠ s.addr) : holdsChangeAddress s = true ∧ t.addr = s.bufByte 1 := by
  obtain ⟨hsvc, -⟩ := dispatch_addr h ha
  rw [dispatch, if_pos hsvc] at h
  injection h with h
  subst h
  rcases serviceDispatch_cases h4 with ⟨-, hd⟩ | ⟨-, hd⟩ | ⟨hcode, hd⟩ | ⟨-, -, -, hd⟩ <;> rw [hd] at ha ⊢
  · simp [echo] at ha
  · simp [describe] at ha
  · rw [changeAddress_inRange h4] at ha ⊢
    split_ifs at ha ⊢ with hvalid
    · exact ⟨by simp [holdsChangeAddress, hcode, hvalid], by simp⟩
    · simp at ha
  · simp [unknownSubCommand] at ha

/-- A data byte leaves the frame-kind flags alone (10_state.md R25). -/
theorem rxNext_data_kind (a v : Byte) (r : RxRegs) :
    (rxNext a (.data v) r).isSvc = r.isSvc ∧ (rxNext a (.data v) r).isGrp = r.isGrp := by
  simp only [rxNext]
  (repeat' split) <;> exact ⟨rfl, rfl⟩

/-- The same request stands in the buffer before and after a byte is taken and summed. -/
theorem holdsChangeAddress_afterRx (c : RxClass) (w : EvWord) (rest : List EvWord) (s : State) :
    holdsChangeAddress (afterRx c (arrive w rest s)) = holdsChangeAddress s := by
  simp [holdsChangeAddress]

/-- Settles O50: of all a step can be, only a Reset and the dispatch of a frame that passed write the address. -/
theorem addressHasTwoWriters : Obligations.AddressHasTwoWriters := by
  intro s t h hne
  rcases step_cases h with ⟨-, rfl⟩ | ⟨w, rest, he, ⟨hk, hrx⟩ | ⟨-, d, k, rfl⟩ | ⟨hk, hreset⟩⟩
  · exact absurd rfl hne
  · refine ⟨w, rest, he, .inr ⟨hk, ?_⟩⟩
    rcases rxStep_cases hrx with rfl | ⟨v, -, -, rfl⟩ | ⟨v, hv, hs, hz, hd⟩
    · simp at hne
    · simp at hne
    · rw [hv] at hd
      have hne' : t.addr ≠ (afterRx (.data v) (arrive w rest s)).addr := by simpa using hne
      obtain ⟨hsvc, hstore⟩ := dispatch_addr hd hne'
      have hkind : (afterRx (.data v) (arrive w rest s)).isSvc = (arrive w rest s).isSvc := (rxNext_data_kind _ _ _).1
      rw [hkind, arrive_isSvc] at hsvc
      rw [arrive_rxState] at hs
      rw [arrive_rxSum] at hz
      refine ⟨hs, hsvc, hstore, ⟨v, hv, hz⟩, fun h4 => ?_⟩
      have hchange := dispatch_addr_inRange (by simpa using h4) hd hne'
      simpa [holdsChangeAddress_afterRx] using hchange
  · exact absurd (arrive_addr w rest s) hne
  · injection hreset with hreset
    exact ⟨w, rest, he, .inl ⟨hk, by simp [← hreset]⟩⟩

/-! ### The writers of the frame kind (10_state.md R25) -/

/-- Only an unescaped marker byte is of the marker class (30_encoding.md R72). -/
theorem decodeByte_mark {e : Bool} {b : Byte} {m : Marker} (h : (decodeByte e b).1 = .mark m) :
    e = false ∧ (b = MK_SVC ∨ b = MK_REG ∨ b = MK_GRP) := by
  unfold decodeByte at h
  split_ifs at h with he h0 h1 h2 h3 <;> simp_all

/-- Settles O51: only the marker class of a received byte writes the flags, and ticks write no receive register. -/
theorem onlyMarkersWriteTheFrameKind : Obligations.OnlyMarkersWriteTheFrameKind := by
  intro s t h hother
  rcases step_cases h with ⟨-, rfl⟩ | ⟨w, rest, he, ⟨hk, hrx⟩ | ⟨-, d, k, rfl⟩ | ⟨hk, -⟩⟩
  · exact ⟨rfl, rfl⟩
  · have hregs := rxStep_rxRegs hrx
    have hsame : t.rxRegs.isSvc = (arrive w rest s).isSvc ∧ t.rxRegs.isGrp = (arrive w rest s).isGrp := by
      rw [hregs]
      cases hc : (decodeByte s.rxEsc w.byte).1 with
      | esc => exact ⟨rfl, rfl⟩
      | mark m => exact absurd ⟨hk, decodeByte_mark hc⟩ (hother w rest he).2
      | data v => exact rxNext_data_kind _ _ _
    rwa [arrive_isSvc, arrive_isGrp] at hsame
  · exact ⟨arrive_isSvc w rest s, arrive_isGrp w rest s⟩
  · exact absurd hk (hother w rest he).1

/-! ### The two sides apart (10_state.md R37) -/

/-- No tick writes the reply's length or its marker (43_tx.md R150). -/
theorem txNext_frame (a d : Byte) (x : TxRegs) :
    (txNext a d x).1.txLen = x.txLen ∧ (txNext a d x).1.txMark = x.txMark := by
  unfold txNext txSend
  (repeat' split) <;> exact ⟨rfl, rfl⟩

/-- Settles O46: a tick writes transmit registers, the wire port and at most the draw counter (`afterTx`). -/
theorem ticksWriteOnlyTheTransmitSide : Obligations.TicksWriteOnlyTheTransmitSide := by
  intro s w rest he hk
  obtain ⟨k, hx⟩ := step_eq_afterTx he hk
  refine ⟨_, hx, ?_⟩
  obtain ⟨hlen, hmark⟩ := txNext_frame s.addr (memRead s.txIdx.toNat s).1 s.txRegs
  have htick : ¬w.kind = KIND_RX := by simp [hk, KIND_RX, KIND_TICK]
  rw [arrive_eq, if_neg htick]
  exact ⟨rfl, rfl, fun _ => rfl, hlen, hmark, rfl, rfl, rfl, rfl, rfl⟩

/-- Two states whose buffer reads, in range or not, give the same bytes (20_memory.md R52). -/
structure SameReads (s s' : State) : Prop where
  cap : s.params.bufCap = s'.params.bufCap
  draws : s.draws = s'.draws
  bytes : ∀ i, s.bufByte i = s'.bufByte i

theorem SameReads.withDraws {s s' : State} (h : SameReads s s') (k : Nat) :
    SameReads { s with draws := k } { s' with draws := k } := ⟨h.cap, rfl, h.bytes⟩

/-- Reads agree on the byte and on the draws they take. -/
theorem SameReads.memRead {s s' : State} (h : SameReads s s') (i : Nat) :
    ∃ b k, memRead i s = (b, { s with draws := k }) ∧ memRead i s' = (b, { s' with draws := k }) := by
  unfold Machine.memRead
  rw [← h.cap, ← h.draws, ← h.bytes i]
  split_ifs
  · exact ⟨_, s.draws, rfl, by rw [h.draws]⟩
  · exact ⟨_, _, rfl, rfl⟩

/-- Settles O52: a tick is a function of the transmit registers, the address and the byte read at `txIdx`. -/
theorem ticksIgnoreTheReceiveSide : Obligations.TicksIgnoreTheReceiveSide := by
  intro s s' t t' w w' rest rest' he he' hk hk' htx haddr hcap hdraws hbytes h h'
  obtain ⟨k, hx⟩ := step_eq_afterTx he hk
  obtain ⟨k', hx'⟩ := step_eq_afterTx he' hk'
  have hidx : s.txIdx = s'.txIdx := congrArg TxRegs.txIdx htx
  obtain ⟨b, _, hb, hb'⟩ := SameReads.memRead ⟨hcap, hdraws, hbytes⟩ s.txIdx.toNat
  rw [hb] at hx
  rw [← hidx, hb'] at hx'
  have hnext : txNext s.addr b s.txRegs = txNext s'.addr b s'.txRegs := by rw [haddr, htx]
  obtain rfl : _ = t := Host.Outcome.next.inj (hx.symm.trans h)
  obtain rfl : _ = t' := Host.Outcome.next.inj (hx'.symm.trans h')
  simp [afterTx_txRegs, afterTx_out, hnext]

/-- Two states that agree on all a received byte writes but the transmit registers: the receive registers, the address, the
outputs, and the buffer where `canon` gives its canonical form. -/
structure SameReceive (canon : Prop) (s s' : State) : Prop where
  rx : s.rxRegs = s'.rxRegs
  addr : s.addr = s'.addr
  params : s.params = s'.params
  out : s.out = s'.out
  buffer : canon → Memory.wf s = true ∧ Memory.wf s' = true ∧ ∀ i, s.bufByte i = s'.bufByte i

/-- What goes on after `onNext` went on before it. -/
theorem onNext_eq_next {o : Result} {f : State → State} {t : State} (h : onNext o f = .next t) :
    ∃ u, o = .next u ∧ f u = t := by
  cases o with
  | next u => exact ⟨u, rfl, Host.Outcome.next.inj h⟩
  | fault e => cases h
  | refused e => cases h

section
variable {canon : Prop} {s s' t t' : State}

/-- Agreement of the states two outcomes go on to. -/
theorem SameReceive.of_next {u u' : State} (h : SameReceive canon u u') (ht : Host.Outcome.next u = (.next t : Result))
    (ht' : Host.Outcome.next u' = (.next t' : Result)) : SameReceive canon t t' :=
  Host.Outcome.next.inj ht ▸ Host.Outcome.next.inj ht' ▸ h

/-! Each operation of the receive path keeps the agreement. -/

/-- The draw counter is not part of the agreement. -/
theorem SameReceive.withDraws (h : SameReceive canon s s') (k : Nat) :
    SameReceive canon { s with draws := k } { s' with draws := k } := ⟨h.rx, h.addr, h.params, h.out, h.buffer⟩

theorem SameReceive.strobeHandler (h : SameReceive canon s s') (p : List Byte) :
    SameReceive canon (strobeHandler p s) (strobeHandler p s') := ⟨h.rx, h.addr, h.params, by simp [h.out], h.buffer⟩

theorem SameReceive.persistAddr (h : SameReceive canon s s') (n : Byte) :
    SameReceive canon (persist n { s with addr := n }) (persist n { s' with addr := n }) :=
  ⟨h.rx, rfl, h.params, by simp [h.out], h.buffer⟩

theorem SameReceive.label (h : SameReceive canon s s') (l : Label) : SameReceive canon (label l s) (label l s') :=
  ⟨h.rx, h.addr, h.params, by simp [h.out], h.buffer⟩

theorem SameReceive.prime (h : SameReceive canon s s') (m n n' : Byte) :
    SameReceive canon (prime m n s) (prime m n' s') := ⟨h.rx, h.addr, h.params, h.out, h.buffer⟩

theorem SameReceive.memWrite (h : SameReceive canon s s') (i : Nat) (v : Byte) :
    SameReceive canon (memWrite i v s) (memWrite i v s') := by
  refine ⟨by simpa using h.rx, by simpa using h.addr, by simpa using h.params, by simpa using h.out, fun hcanon => ?_⟩
  obtain ⟨hw, hw', hbytes⟩ := h.buffer hcanon
  refine ⟨memWrite_wf hw, memWrite_wf hw', fun j => ?_⟩
  by_cases hi : i < s.params.bufCap
  · by_cases hj : j = i
    · rw [hj, memWrite_bufByte_same hw hi, memWrite_bufByte_same hw' (h.params ▸ hi)]
    · rw [memWrite_bufByte_other hj, memWrite_bufByte_other hj, hbytes j]
  · rw [memWrite_outOfRange hi, memWrite_outOfRange (h.params ▸ hi), hbytes j]

theorem SameReceive.memWriteList (h : SameReceive canon s s') (bs : List Byte) (i : Nat) :
    SameReceive canon (memWriteList bs i s) (memWriteList bs i s') := by
  induction bs generalizing i s s' with
  | nil => exact h
  | cons b bs ih => exact ih (h.memWrite i b) (i + 1)

theorem SameReceive.afterRx (h : SameReceive canon s s') (c : RxClass) :
    SameReceive canon (afterRx c s) (afterRx c s') :=
  ⟨by simp [h.rx, h.addr], h.addr, h.params, by simp [h.rx, h.addr, h.params, h.out], h.buffer⟩

/-- Agreeing states read the same list and take the same draws. -/
theorem SameReads.memReadList (h : SameReads s s') (n i : Nat) :
    ∃ bs k, memReadList n i s = (bs, { s with draws := k }) ∧ memReadList n i s' = (bs, { s' with draws := k }) := by
  induction n generalizing i s s' with
  | zero => exact ⟨[], s.draws, rfl, by rw [h.draws]; rfl⟩
  | succ n ih =>
    obtain ⟨b, k, hb, hb'⟩ := h.memRead i
    obtain ⟨bs, k', hbs, hbs'⟩ := ih (h.withDraws k) (i + 1)
    exact ⟨b :: bs, k', by simp [Machine.memReadList, hb, hbs], by simp [Machine.memReadList, hb', hbs']⟩

/-- Agreeing states read the same ChangeAddress parameters and take the same draws. -/
theorem SameReads.changeAddrOperands (h : SameReads s s') :
    ∃ p k, changeAddrOperands s = (p, { s with draws := k }) ∧ changeAddrOperands s' = (p, { s' with draws := k }) := by
  obtain ⟨n, k1, hn, hn'⟩ := h.memRead 1
  obtain ⟨e, k2, he, he'⟩ := (h.withDraws k1).memRead 2
  obtain ⟨x, k3, hx, hx'⟩ := (h.withDraws k2).memRead 3
  exact ⟨(n, e, x), k3, by simp [Machine.changeAddrOperands, hn, he, hx],
    by simp [Machine.changeAddrOperands, hn', he', hx']⟩

/-- The handler is called with the same input and answers alike (44_dispatch.md R171, R178). -/
theorem SameReceive.callHandler (h : SameReceive canon s s') (hr : SameReads s s') (ht : callHandler s = .next t)
    (ht' : callHandler s' = .next t') : SameReceive canon t t' := by
  obtain ⟨p, k, hp, hp'⟩ := hr.memReadList s.params.inCap 0
  have hin : s'.params.inCap = s.params.inCap := by rw [h.params]
  have hanswer : handlerAnswer s'.params p = handlerAnswer s.params p := by rw [h.params]
  simp only [Machine.callHandler, hp] at ht
  simp only [Machine.callHandler, hin, hp', hanswer] at ht'
  cases ha : handlerAnswer s.params p with
  | none => simp [ha] at ht
  | some r =>
    simp only [ha] at ht ht'
    split_ifs at ht ht'
    exact (((h.withDraws k).strobeHandler p).memWriteList r 0).of_next ht ht'

/-- ChangeAddress validates, persists and confirms alike (44_dispatch.md R176). -/
theorem SameReceive.changeAddress (h : SameReceive canon s s') (hr : SameReads s s') :
    SameReceive canon (changeAddress s) (changeAddress s') := by
  obtain ⟨⟨n, e, x⟩, k, hp, hp'⟩ := hr.changeAddrOperands
  have hvalid : changeAddrValid s'.addr n e x = changeAddrValid s.addr n e x := by rw [h.addr]
  have hreply : caReplyBytes s'.params n e x = caReplyBytes s.params n e x := by rw [h.params]
  simp only [Machine.changeAddress, hp, hp', hvalid, hreply]
  split_ifs
  · exact ((((h.withDraws k).persistAddr n).memWrite 0 _).memWrite 1 _).label .acceptChangeAddr |>.prime MK_SVC 2 2
  · exact (h.withDraws k).label .svcRejected

/-- A service frame's dispatch does alike (44_dispatch.md R173). -/
theorem SameReceive.serviceDispatch (h : SameReceive canon s s') (hr : SameReads s s') :
    SameReceive canon (serviceDispatch s) (serviceDispatch s') := by
  obtain ⟨c, k, hc, hc'⟩ := hr.memRead 0
  have hsub : subCommand s'.params c = subCommand s.params c := by rw [h.params]
  have hk := h.withDraws k
  simp only [Machine.serviceDispatch, hc, hc', hsub]
  cases subCommand s.params c with
  | echo => exact (hk.label .acceptEcho).prime MK_SVC _ _
  | describe =>
    have hin : capByte s'.params.inCap = capByte s.params.inCap := by rw [h.params]
    have hout : capByte s'.params.outCap = capByte s.params.outCap := by rw [h.params]
    simp only [describe, hin, hout]
    exact (((hk.memWrite 0 _).memWrite 1 _).label .acceptDescribe).prime MK_SVC 2 2
  | changeAddr => exact hk.changeAddress (hr.withDraws k)
  | unknown => exact hk.label .svcUnknown

/-- A dispatch does alike (44_dispatch.md R170). -/
theorem SameReceive.dispatch (h : SameReceive canon s s') (hr : SameReads s s') (ht : dispatch s = .next t)
    (ht' : dispatch s' = .next t') : SameReceive canon t t' := by
  have hsvc : s'.isSvc = s.isSvc := (congrArg RxRegs.isSvc h.rx).symm
  have hgrp : s'.isGrp = s.isGrp := (congrArg RxRegs.isGrp h.rx).symm
  simp only [Machine.dispatch, hsvc, hgrp] at ht ht'
  split_ifs at ht ht'
  · exact (h.serviceDispatch hr).of_next ht ht'
  · obtain ⟨u, hu, rfl⟩ := onNext_eq_next ht
    obtain ⟨u', hu', rfl⟩ := onNext_eq_next ht'
    exact (h.callHandler hr hu hu').label .acceptGrp
  · obtain ⟨u, hu, rfl⟩ := onNext_eq_next ht
    obtain ⟨u', hu', rfl⟩ := onNext_eq_next ht'
    exact ((h.callHandler hr hu hu').label .acceptCmd).prime MK_REG _ _

/-- A received byte does alike (42_rx.md R120). -/
theorem SameReceive.rxStep (h : SameReceive canon s s') (hr : SameReads s s') {c : RxClass} (ht : rxStep c s = .next t)
    (ht' : rxStep c s' = .next t') : SameReceive canon t t' := by
  have hst : s'.rxState = s.rxState := (congrArg RxRegs.rxState h.rx).symm
  have hsum : s'.rxSum = s.rxSum := (congrArg RxRegs.rxSum h.rx).symm
  have hidx : s'.rxIdx = s.rxIdx := (congrArg RxRegs.rxIdx h.rx).symm
  have hafter := h.afterRx c
  cases c with
  | esc | mark m => exact hafter.of_next ht ht'
  | data v =>
    simp only [Machine.rxStep, hst, hsum, hidx] at ht ht'
    cases hs : s.rxState <;> simp only [hs] at ht ht'
    case waitData => exact (hafter.memWrite _ v).of_next ht ht'
    case waitChecksum =>
      split_ifs at ht ht'
      · exact hafter.dispatch ⟨hr.cap, hr.draws, hr.bytes⟩ ht ht'
      · exact hafter.of_next ht ht'
    all_goals exact hafter.of_next ht ht'

/-- Taking the same word leaves agreeing states in agreement. -/
theorem SameReceive.arrive (hrx : s.rxRegs = s'.rxRegs) (haddr : s.addr = s'.addr) (hparams : s.params = s'.params)
    (hbytes : ∀ i, s.bufByte i = s'.bufByte i) (w : EvWord) (rest rest' : List EvWord) :
    SameReceive (Memory.wf s = true ∧ Memory.wf s' = true) (arrive w rest s) (arrive w rest' s') := by
  have hesc : s.rxEsc = s'.rxEsc := congrArg RxRegs.rxEsc hrx
  refine ⟨?_, by simpa using haddr, by simpa using hparams, by simp, fun ⟨hw, hw'⟩ => ⟨?_, ?_, by simpa using hbytes⟩⟩
  · simp only [arrive_rxRegs, hrx, hesc]
  · rw [arrive_eq]; exact hw
  · rw [arrive_eq]; exact hw'

end

/-- Settles O53: agreement on everything but the transmit registers goes through the byte. -/
theorem receivingIgnoresTheTransmitSide : Obligations.ReceivingIgnoresTheTransmitSide := by
  intro s s' t t' b rest rest' he he' hrx haddr hparams hdraws hbytes h h'
  have hesc : s'.rxEsc = s.rxEsc := (congrArg RxRegs.rxEsc hrx).symm
  rw [step_eq_rxStep he (rxWord_kind b)] at h
  rw [step_eq_rxStep he' (rxWord_kind b), hesc] at h'
  have hreads : SameReads (arrive (rxWord b) rest s) (arrive (rxWord b) rest' s') :=
    ⟨by simp [hparams], by simpa using hdraws, by simpa using hbytes⟩
  have hsame := (SameReceive.arrive hrx haddr hparams hbytes (rxWord b) rest rest').rxStep hreads h h'
  exact ⟨hsame.rx, hsame.addr, hsame.out, fun hw hw' => (hsame.buffer ⟨hw, hw'⟩).2.2⟩

end Sys2Proof.Machine

/-! The statements of 20_memory.md: what a buffer write does (R52, R53), and which events write the buffer (R54). -/

namespace Sys2Proof.Machine

/-! ### One write (20_memory.md R52, R53) -/

/-- Settles O44: the laws of `memWrite`, with the read answered by the byte of its index. -/
theorem bufferWritesReadBack : Obligations.BufferWritesReadBack := by
  intro s i v hw
  refine ⟨fun hi => ?_, fun hi => memWrite_outOfRange (Nat.not_lt.2 hi), fun _ => memWrite_bufByte_other,
    memWrite_wf hw⟩
  rw [memRead_inRange (by simpa using hi)]
  exact memWrite_bufByte_same hw hi

/-- A write that changes a byte is in range, at that byte's index, and leaves the written value there. -/
theorem memWrite_changes {s : State} {i j : Nat} {v : Byte} (hw : Memory.wf s = true)
    (hne : (memWrite j v s).bufByte i ≠ s.bufByte i) :
    i = j ∧ i < s.params.bufCap ∧ (memWrite j v s).bufByte i = v := by
  obtain rfl : i = j := not_imp_comm.1 memWrite_bufByte_other hne
  have hi : i < s.params.bufCap := by
    by_contra hout
    rw [memWrite_outOfRange hout] at hne
    exact hne rfl
  exact ⟨rfl, hi, memWrite_bufByte_same hw hi⟩

/-- Writing a list, in range or not, leaves every byte past its end alone. -/
theorem memWriteList_bufByte_beyond {bs : List Byte} {k j : Nat} {s : State} (h : k + bs.length ≤ j) :
    (memWriteList bs k s).bufByte j = s.bufByte j := by
  induction bs generalizing k s with
  | nil => rfl
  | cons b bs ih =>
    rw [List.length_cons] at h
    rw [memWriteList, ih (by omega), memWrite_bufByte_other (by omega)]

/-- Writing a list from index 0 on changes a byte only below the list's length. -/
theorem memWriteList_changes {bs : List Byte} {i : Nat} {s : State}
    (hne : (memWriteList bs 0 s).bufByte i ≠ s.bufByte i) : i < bs.length := by
  by_contra hout
  exact hne (memWriteList_bufByte_beyond (by omega))

/-- The two bytes that Describe and ChangeAddress write (44_dispatch.md R175, R176). -/
theorem memWrite_pair_changes {r0 r1 : Byte} {i : Nat} {s : State}
    (hne : (memWrite 1 r1 (memWrite 0 r0 s)).bufByte i ≠ s.bufByte i) : i < 2 :=
  memWriteList_changes (bs := [r0, r1]) hne

/-! ### The writers of the buffer (20_memory.md R54) -/

/-- Of the four sub-commands, Describe and a ChangeAddress that validates write the buffer, its first two bytes
(44_dispatch.md R174 to R177). -/
theorem serviceDispatch_changes {s : State} {i : Nat} (h4 : 4 ≤ s.params.bufCap)
    (hne : (serviceDispatch s).bufByte i ≠ s.bufByte i) :
    i < 2 ∧ (s.bufByte 0 = s.params.svcDescribe ∨ holdsChangeAddress s = true) := by
  rcases serviceDispatch_cases h4 with ⟨-, hd⟩ | ⟨hcode, hd⟩ | ⟨hcode, hd⟩ | ⟨-, -, -, hd⟩ <;> rw [hd] at hne
  · simp [echo] at hne
  · rw [describe, prime_bufByte, label_bufByte] at hne
    exact ⟨memWrite_pair_changes hne, .inl hcode⟩
  · rw [changeAddress_inRange h4] at hne
    split_ifs at hne with hvalid
    · rw [prime_bufByte, label_bufByte] at hne
      have hlt : i < 2 := memWrite_pair_changes (s := persist (s.bufByte 1) { s with addr := s.bufByte 1 }) hne
      exact ⟨hlt, .inr (by simp [holdsChangeAddress, hcode, hvalid])⟩
    · simp at hne
  · simp [unknownSubCommand] at hne

/-- A dispatch changes the first two bytes in a service frame, and otherwise the handler's answer of OUT_CAP bytes
(44_dispatch.md R170 to R172). -/
theorem dispatch_changes {s t : State} {i : Nat} (h4 : 4 ≤ s.params.bufCap) (h : dispatch s = .next t)
    (hne : t.bufByte i ≠ s.bufByte i) :
    s.isSvc = true ∧ i < 2 ∧ (s.bufByte 0 = s.params.svcDescribe ∨ holdsChangeAddress s = true) ∨
      s.isSvc = false ∧ i < s.params.outCap := by
  rcases dispatch_cases h with ⟨hsvc, -⟩ | ⟨hsvc, p, r, k, hlen, ⟨-, rfl⟩ | ⟨-, rfl⟩⟩
  · rw [dispatch, if_pos hsvc] at h
    obtain rfl := Host.Outcome.next.inj h
    exact .inl ⟨hsvc, serviceDispatch_changes h4 hne⟩
  all_goals
    simp only [prime_bufByte, label_bufByte] at hne
    have hlt : i < r.length := memWriteList_changes (s := strobeHandler p { s with draws := k }) hne
    exact .inr ⟨hsvc, hlen ▸ hlt⟩

/-- A received byte changes the buffer by being stored in WaitData, or by the dispatch of the frame it completes. -/
theorem rxStep_changes {c : RxClass} {s t : State} {i : Nat} (hw : Memory.wf s = true) (h4 : 4 ≤ s.params.bufCap)
    (h : rxStep c s = .next t) (hne : t.bufByte i ≠ s.bufByte i) : ∃ v, c = .data v ∧
      (s.rxState = .waitData ∧ i = s.rxIdx.toNat ∧ i < s.params.bufCap ∧ t.bufByte i = v ∨
        s.rxState = .waitChecksum ∧ s.rxSum + v = 0 ∧
          (s.isSvc = true ∧ i < 2 ∧ (s.bufByte 0 = s.params.svcDescribe ∨ holdsChangeAddress s = true) ∨
            s.isSvc = false ∧ i < s.params.outCap)) := by
  rcases rxStep_cases h with rfl | ⟨v, rfl, hs, rfl⟩ | ⟨v, rfl, hs, hz, hd⟩
  · simp at hne
  · exact ⟨v, rfl, .inl ⟨hs, memWrite_changes (s := afterRx (.data v) s) hw hne⟩⟩
  · have hkind : (afterRx (.data v) s).isSvc = s.isSvc := (rxNext_data_kind _ _ _).1
    have hwrites := dispatch_changes (s := afterRx (.data v) s) h4 hd hne
    rw [hkind] at hwrites
    exact ⟨v, rfl, .inr ⟨hs, hz, hwrites⟩⟩

@[simp] theorem arrive_rxIdx (w : EvWord) (rest : List EvWord) (s : State) :
    (arrive w rest s).rxIdx = s.rxIdx := by rw [arrive_eq]
@[simp] theorem arrive_wf (w : EvWord) (rest : List EvWord) (s : State) :
    Memory.wf (arrive w rest s) = Memory.wf s := by rw [arrive_eq]; rfl
@[simp] theorem arrive_holdsChangeAddress (w : EvWord) (rest : List EvWord) (s : State) :
    holdsChangeAddress (arrive w rest s) = holdsChangeAddress s := by simp [holdsChangeAddress]

/-- No tick writes the buffer (43_tx.md R150). -/
@[simp] theorem afterTx_bufByte (d : Byte) (k : Nat) (s : State) (i : Nat) :
    (afterTx d k s).bufByte i = s.bufByte i := rfl

/-- Settles O45: of all a step can be, an idle one and a tick write no byte of the buffer, and a received byte writes what
`rxStep_changes` says. The bytes of a frame discarded at its address or mask arrive in Idle, where R126 stores none
(log 25, DEDUCED). -/
theorem onlyPayloadDispatchAndResetWriteTheBuffer : Obligations.OnlyPayloadDispatchAndResetWriteTheBuffer := by
  intro s t i hw hp h hne
  obtain ⟨h4, -⟩ := (params_wf_iff s.params).1 hp
  rcases step_cases h with ⟨-, rfl⟩ | ⟨w, rest, he, ⟨hk, hrx⟩ | ⟨-, d, k, rfl⟩ | ⟨hk, -⟩⟩
  · simp at hne
  · have hwrites := rxStep_changes (i := i) (by simpa using hw) (by simpa using h4) hrx (by simpa using hne)
    simp only [arrive_rxState, arrive_rxIdx, arrive_params, arrive_rxSum, arrive_isSvc, arrive_bufByte,
      arrive_holdsChangeAddress] at hwrites
    exact ⟨w, rest, he, .inr ⟨hk, hwrites⟩⟩
  · simp at hne
  · exact ⟨w, rest, he, .inl hk⟩

end Sys2Proof.Machine

/-! The statements of 30_encoding.md: the decoder and the encoder agree (R70, R72), one row per event word (R79), the
reserved kind (R71) and the byte after an escape (R80). -/

namespace Sys2Proof.Machine

/-! ### The decoder, word by word (30_encoding.md R70 to R72) -/

theorem decode_of_rx {c : Ctx} {w : EvWord} (hk : w.kind = KIND_RX) : decode (.ev c) w = .ok (decodeRx c w.byte) :=
  if_pos hk

theorem decode_of_tick {c : Ctx} {w : EvWord} (hk : w.kind = KIND_TICK) : decode (.ev c) w = .ok (decodeTick c) := by
  simp [decode, hk, KIND_RX, KIND_TICK]

theorem decode_of_reset {c : Ctx} {w : EvWord} (hk : w.kind = KIND_RESET) : decode (.ev c) w = .ok .reset := by
  simp [decode, hk, KIND_RX, KIND_TICK, KIND_RESET]

theorem decode_of_reserved {c : Ctx} {w : EvWord} (hk : w.kind = 0b11) :
    decode (.ev c) w = .error (.reservedKind w) := by
  simp [decode, hk, KIND_RX, KIND_TICK, KIND_RESET]

/-- A received byte that DECODE makes data is the row its value is classified as. -/
theorem decodeRx_of_data {c : Ctx} {b v : Byte} {e : Bool} (h : decodeByte c.rxEsc b = (.data v, e)) :
    decodeRx c b = classifyData c v := by
  simp only [decodeRx, h]

/-- The data bytes on the wire are the wire bytes of the values of the data class: the converse of
`decodeByte_wireByte`. -/
theorem wireByte_of_decodeByte {e : Bool} {b v : Byte} (h : decodeByte e b = (.data v, false)) :
    dataClass e v = true ∧ wireByte e v = b := by
  cases e with
  | true =>
    obtain rfl : b - SHIFT = v := by simpa [decodeByte] using h
    exact ⟨rfl, BitVec.sub_add_cancel b SHIFT⟩
  | false =>
    simp only [decodeByte, Bool.false_eq_true, if_false] at h
    split_ifs at h with h0 h1 h2 h3 <;> cases h
    simp only [ESC, MK_SVC, MK_REG, MK_GRP] at h0 h1 h2 h3
    exact ⟨by simp only [dataClass, Bool.false_or, decide_eq_true_eq]; bv_omega, rfl⟩

/-! ### The table's condition column and the decoder's rows (30_encoding.md R72, R79) -/

/-- Of all rows, the table admits on the port only those the decoder can answer there. -/
theorem admits_ev_cases {c : Ctx} {i : Instr} (hwf : i.wf = true) (h : (Site.ev c).admits i = true) :
    i = .reset ∨
    (c.rxEsc = false ∧ (i = .rxEsc ∨ i = .rxMarkSvc ∨ i = .rxMarkReg ∨ i = .rxMarkGrp)) ∨
    (∃ v, dataClass c.rxEsc v = true ∧ i = classifyData c v) ∨
    i = decodeTick c := by
  cases i with
  | reset => exact .inl rfl
  | rxEsc | rxMarkSvc | rxMarkReg | rxMarkGrp => exact .inr (.inl ⟨by simpa [Site.admits] using h, by simp⟩)
  | rxAddrReply v | rxAddrUni v | rxAddrGrp v =>
    simp only [Instr.wf, Bool.not_eq_true'] at hwf
    simp only [Site.admits, Bool.and_eq_true, decide_eq_true_eq, Bool.not_eq_true'] at h
    exact .inr (.inr (.inl ⟨v, by simp [h], by simp [classifyData, hasReplyBit_eq, hwf, h]⟩))
  | rxIdleData v | rxGmask v | rxLen v | rxData v | rxCsum v =>
    simp only [Site.admits, Bool.and_eq_true, decide_eq_true_eq] at h
    exact .inr (.inr (.inl ⟨v, h.2, by simp [classifyData, h.1]⟩))
  | txIdle | txStart | txAddr | txLen | txData | txCsum =>
    simp only [Site.admits, Bool.and_eq_true, decide_eq_true_eq, Bool.not_eq_true'] at h
    exact .inr (.inr (.inr (by simp [decodeTick, h])))
  | _ => exact absurd h Bool.false_ne_true

/-- The row of a data value is well formed and admitted. -/
theorem classifyData_admitted {c : Ctx} {v : Byte} (hd : dataClass c.rxEsc v = true) :
    (classifyData c v).wf = true ∧ (Site.ev c).admits (classifyData c v) = true := by
  cases hs : c.rxState with
  | waitAddress =>
    cases hv : v.msb <;> cases hg : c.isGrp <;>
      simp [classifyData, hasReplyBit_eq, Instr.wf, Site.admits, hs, hv, hg, hd]
  | _ => simp [classifyData, Instr.wf, Site.admits, hs, hd]

/-- The row of a tick is well formed and admitted. -/
theorem decodeTick_admitted (c : Ctx) :
    (decodeTick c).wf = true ∧ (Site.ev c).admits (decodeTick c) = true := by
  cases hs : c.txState with
  | sendData => cases hm : c.txMore <;> simp [decodeTick, Instr.wf, Site.admits, hs, hm]
  | _ => simp [decodeTick, Instr.wf, Site.admits, hs]

/-- The table admits at a frame that passed only the operation that is selected (44_dispatch.md R170, R173). -/
theorem selectDispatch_of_admits {isSvc isGrp : Bool} {sub : SubCommand} {i : Instr}
    (h : (Site.dispatch isSvc isGrp sub).admits i = true) : ∃ b, i = selectDispatch isSvc isGrp sub b := by
  cases i with
  | dispatchCmd b | dispatchGrp b | svcEcho b | svcDescribe b | svcChangeAddr b | svcUnknown b =>
    simp only [Site.admits, Bool.and_eq_true, Bool.not_eq_true', decide_eq_true_eq] at h
    exact ⟨b, by simp [selectDispatch, h]⟩
  | _ => exact absurd h Bool.false_ne_true

/-- The table admits at a component only its primitive. -/
theorem selectComponent_of_admits {k : Component} {i : Instr} (h : (Site.component k).admits i = true) :
    ∃ b, i = selectComponent k b := by
  cases i with
  | encode b | decode b | csumAdd _ b | csumCheck _ b =>
    obtain rfl := of_decide_eq_true h
    exact ⟨b, rfl⟩
  | csumInit | csumFinal =>
    obtain rfl := of_decide_eq_true h
    exact ⟨0, rfl⟩
  | _ => exact absurd h Bool.false_ne_true

/-! ### The encoder on the decoder's rows -/

@[simp] theorem encode_classifyData (e : Bool) (c : Ctx) (v : Byte) :
    encode e (classifyData c v) = evWord KIND_RX (wireByte e v) := by
  unfold classifyData
  (repeat' split) <;> rfl

@[simp] theorem encode_decodeTick (e : Bool) (c : Ctx) : encode e (decodeTick c) = evWord KIND_TICK 0 := by
  unfold decodeTick
  (repeat' split) <;> rfl

@[simp] theorem encode_selectDispatch (e isSvc isGrp : Bool) (sub : SubCommand) (b : Byte) :
    encode e (selectDispatch isSvc isGrp sub b) = evWord KIND_RX b := by
  unfold selectDispatch
  (repeat' split) <;> rfl

/-- The word of a primitive has its operand byte, or 0 where the primitive has no operand and reads none (log 13). -/
theorem encode_selectComponent (e : Bool) (k : Component) (b : Byte) :
    ∃ b', encode e (selectComponent k b) = evWord KIND_RX b' ∧ selectComponent k b' = selectComponent k b := by
  cases k with
  | encode | decode | csumAdd | csumCheck => exact ⟨b, rfl, rfl⟩
  | csumInit | csumFinal => exact ⟨0, rfl, rfl⟩

/-! ### Decoding what was encoded (30_encoding.md sections 1, 2 and 5) -/

/-- On the port the four kinds of row come back: Reset, the raw escape byte and markers, data, and ticks. -/
theorem decode_encode_ev {c : Ctx} {i : Instr} (hwf : i.wf = true) (h : (Site.ev c).admits i = true) :
    decode (.ev c) (encode c.rxEsc i) = .ok i := by
  rcases admits_ev_cases hwf h with rfl | ⟨he, rfl | rfl | rfl | rfl⟩ | ⟨v, hd, rfl⟩ | rfl
  · exact decode_of_reset (evWord_kind _ _)
  · simp [encode, decode_of_rx, decodeRx, decodeByte, he]
  · simp [encode, decode_of_rx, decodeRx, decodeByte, he, ESC, MK_SVC]
  · simp [encode, decode_of_rx, decodeRx, decodeByte, he, ESC, MK_SVC, MK_REG]
  · simp [encode, decode_of_rx, decodeRx, decodeByte, he, ESC, MK_SVC, MK_REG, MK_GRP]
  · rw [encode_classifyData, decode_of_rx (evWord_kind _ _), evWord_byte, decodeRx_of_data (decodeByte_wireByte hd)]
  · rw [encode_decodeTick, decode_of_tick (evWord_kind _ _)]

/-- Settles O1: at each site the table admits only the rows the decoder answers there, and the encoder's word has what
the decoder reads of such a row. -/
theorem decodeOfEncodeIsSelf : Obligations.DecodeOfEncodeIsSelf := by
  intro site i hwf h
  cases site with
  | ev c => exact decode_encode_ev hwf h
  | dispatch isSvc isGrp sub =>
    obtain ⟨b, rfl⟩ := selectDispatch_of_admits h
    simp [decode]
  | component k =>
    obtain ⟨b, rfl⟩ := selectComponent_of_admits h
    obtain ⟨b', hw, hsame⟩ := encode_selectComponent (Site.component k).rxEsc k b
    simp [decode, hw, hsame]

/-! ### One row for each event word (30_encoding.md R79) -/

/-- The decoder reads a word's kind, and its byte only when it is a received byte. -/
theorem decode_ev_congr {c : Ctx} {w w' : EvWord} {i : Instr} (hk : w'.kind = w.kind)
    (hb : w.kind = KIND_RX → w'.byte = w.byte) (h : decode (.ev c) w' = .ok i) : decode (.ev c) w = .ok i := by
  rw [← h]
  rcases kind_cases w.kind with hw | hw | hw | hw
  · rw [decode_of_rx hw, decode_of_rx (hk.trans hw), hb hw]
  · rw [decode_of_tick hw, decode_of_tick (hk.trans hw)]
  · rw [decode_of_reset hw, decode_of_reset (hk.trans hw)]
  · rw [decode_of_reserved (hk.trans hw)] at h
    cases h

/-- A row that applies to a word is the one the decoder answers: the word is the row's own word, as far as the decoder
reads it. -/
theorem decode_of_applies {c : Ctx} {w : EvWord} {i : Instr} (h : Applies c w i) : decode (.ev c) w = .ok i := by
  obtain ⟨hwf, hadmits, hkind, hbyte⟩ := h
  exact decode_ev_congr hkind hbyte (decode_encode_ev hwf hadmits)

/-- The row of a received byte applies to its word. -/
theorem applies_decodeRx {c : Ctx} {w : EvWord} (hk : w.kind = KIND_RX) : Applies c w (decodeRx c w.byte) := by
  rcases decodeRx_cases c w.byte with ⟨he, hb, hd⟩ | ⟨he, hb, hd⟩ | ⟨he, hb, hd⟩ | ⟨he, hb, hd⟩ | ⟨v, hv, hd⟩
  case inr.inr.inr.inr =>
    obtain ⟨hclass, hwire⟩ := wireByte_of_decodeByte hv
    obtain ⟨hwf, hadmits⟩ := classifyData_admitted hclass
    rw [hd]
    exact ⟨hwf, hadmits, by simp [hk], fun _ => by simp [hwire]⟩
  all_goals
    rw [hd]
    exact ⟨rfl, by simp [Site.admits, he], by simp [encode, hk], fun _ => by simp [encode, hb]⟩

/-- The row of a tick applies to its word. -/
theorem applies_decodeTick {c : Ctx} {w : EvWord} (hk : w.kind = KIND_TICK) : Applies c w (decodeTick c) := by
  obtain ⟨hwf, hadmits⟩ := decodeTick_admitted c
  exact ⟨hwf, hadmits, by simp [hk], fun hrx => absurd (hk.symm.trans hrx) (by decide)⟩

/-- The decoder answers every word that is not of kind 11, with a row that applies to it. -/
theorem decode_applies (c : Ctx) {w : EvWord} (hk : w.kind ≠ 0b11) :
    ∃ i, decode (.ev c) w = .ok i ∧ Applies c w i := by
  rcases kind_cases w.kind with hw | hw | hw | hw
  · exact ⟨_, decode_of_rx hw, applies_decodeRx hw⟩
  · exact ⟨_, decode_of_tick hw, applies_decodeTick hw⟩
  · exact ⟨_, decode_of_reset hw, rfl, rfl, hw ▸ evWord_kind _ _, fun hrx => absurd (hw.symm.trans hrx) (by decide)⟩
  · exact absurd hw hk

/-- Settles O2: the decoder's row applies, and any row that applies is the decoder's by `decode_of_applies`. -/
theorem everyEventWordIsExactlyOneRow : Obligations.EveryEventWordIsExactlyOneRow := by
  intro c w hk
  obtain ⟨i, hd, happlies⟩ := decode_applies c hk
  exact ⟨i, hd, happlies, fun j hj => Except.ok.inj ((decode_of_applies hj).symm.trans hd)⟩

/-! ### The reserved kind, the sample words and the byte after an escape -/

/-- Settles O3: the decoder looks at the kind before the context, and a step refuses what the decoder rejects. -/
theorem reservedKindIsRefused : Obligations.ReservedKindIsRefused := by
  intro s w rest hk he
  refine ⟨fun _ => decode_of_reserved hk, ?_⟩
  simp only [step, he, decode_of_reserved hk]

/-- Settles O4, by running the decoder on each word. -/
theorem sampleWordsDecode : Obligations.SampleWordsDecode :=
  ⟨rfl, rfl, rfl, rfl, rfl, rfl, rfl, rfl⟩

/-- Settles O6: under the flag DECODE does not compare the byte with the escape value or a marker. -/
theorem byteAfterPrefixIsData : Obligations.ByteAfterPrefixIsData := by
  intro c b he
  have hdata : decodeByte true b = (.data (b - 4), false) := rfl
  refine ⟨?_, hdata⟩
  rw [decode_of_rx (rxWord_kind b), rxWord_byte, decodeRx_of_data (he ▸ hdata)]

end Sys2Proof.Machine

/-! The statements of 40_codec.md: what ENCODE emits (R100), what DECODE makes of a wire byte (R101), and that the wire form
of logical bytes decodes to those bytes (R102, R103). -/

namespace Sys2Proof.Machine

/-! ### The effect of an update of one register group -/

theorem txEffect_of_eq {s t : State} {x : TxRegs} {o : Output} (h : t = { s.withTx x with out := o }) :
    TxEffect s t x o := by
  subst h
  exact ⟨rfl, rfl, rfl, rfl, fun _ => rfl, rfl, rfl, rfl, rfl⟩

theorem rxEffect_of_eq {s t : State} {r : RxRegs} {o : Output} (h : t = { s.withRx r with out := o }) :
    RxEffect s t r o := by
  subst h
  exact ⟨rfl, rfl, rfl, rfl, fun _ => rfl, rfl, rfl, rfl, rfl⟩

/-! ### ENCODE (40_codec.md R100) -/

theorem encodeStep_of_txEsc {v : Byte} {s : State} (h : s.txEsc = true) :
    encodeStep v s = (true, { emit (v + SHIFT) s with txEsc := false }) := if_pos h

theorem encodeStep_of_reserved {v : Byte} {s : State} (h : s.txEsc = false) (hv : v ≤ MK_MAX) :
    encodeStep v s = (false, { emit ESC s with txEsc := true }) := by
  simp only [encodeStep, h, hv, Bool.false_eq_true, if_false, if_true]

theorem encodeStep_of_plain {v : Byte} {s : State} (h : s.txEsc = false) (hv : MK_MAX < v) :
    encodeStep v s = (true, emit v s) := by
  simp only [encodeStep, h, BitVec.not_le.2 hv, Bool.false_eq_true, if_false]

theorem exec_encode (v : Byte) (s : State) :
    exec (.encode v) s = .next (returnValue (.done (encodeStep v s).1) (encodeStep v s).2) := rfl

/-- Settles O40, one equation of `encodeStep` for each case of R100. -/
theorem encodePrimitiveEmitsOneByte : Obligations.EncodePrimitiveEmitsOneByte := by
  intro s v
  refine ⟨_, exec_encode v s, fun hesc => ?_, fun ⟨hesc, hv⟩ => ?_, fun ⟨hesc, hv⟩ => ?_⟩
  · rw [encodeStep_of_txEsc hesc]
    exact txEffect_of_eq rfl
  · rw [encodeStep_of_reserved hesc hv]
    exact txEffect_of_eq rfl
  · rw [encodeStep_of_plain hesc hv]
    exact txEffect_of_eq rfl

/-! ### DECODE (40_codec.md R101) -/

theorem decodeStep_eq (b : Byte) (s : State) : decodeStep b s =
    ((decodeByte s.rxEsc b).1, { s with rxEsc := decide (s.rxEsc = false ∧ b = ESC) }) := by
  rw [decodeStep, decodeByte_flag]

theorem exec_decode (b : Byte) (s : State) :
    exec (.decode b) s = .next (returnValue (.decoded (decodeStep b s).1) (decodeStep b s).2) := rfl

/-- Without the flag, a byte above the reserved values is data as it stands. -/
theorem decodeByte_plain {b : Byte} (hb : 4 ≤ b) : decodeByte false b = (.data b, false) :=
  decodeByte_wireByte (e := false) (by simpa [dataClass, BitVec.le_def] using hb)

/-- Settles O41: the flag and the frame by `decodeStep_eq`, the class by the byte's place among the reserved values. -/
theorem decodePrimitiveClassifies : Obligations.DecodePrimitiveClassifies := by
  intro s b
  refine ⟨_, (decodeByte s.rxEsc b).1, exec_decode b s, ?_, fun hesc => ?_, fun hesc hb => ?_, fun hesc hb => ?_,
    fun hesc hb => ?_, fun hesc hb => ?_, fun hesc hb => ?_⟩
  · rw [decodeStep_eq]
    exact rxEffect_of_eq rfl
  · rw [hesc]; rfl
  · rw [hesc, hb]; rfl
  · rw [hesc, hb]; rfl
  · rw [hesc, hb]; rfl
  · rw [hesc, hb]; rfl
  · rw [hesc, decodeByte_plain hb]

/-! ### Decoding the wire form (40_codec.md R102, R103) -/

/-- Decoding a run of wire bytes goes on where its first part left the escape flag. -/
theorem decodeBytes_append (e : Bool) (bs cs : List Byte) : decodeBytes e (bs ++ cs) =
    ((decodeBytes e bs).1 ++ (decodeBytes (decodeBytes e bs).2 cs).1, (decodeBytes (decodeBytes e bs).2 cs).2) := by
  induction bs generalizing e with
  | nil => rfl
  | cons b bs ih => simp only [List.cons_append, decodeBytes, ih]

/-- R103 for one byte, with the class of the escape byte in its place. -/
theorem decodeBytes_enc (x : Byte) :
    decodeBytes false (enc x) = (if x ≤ MK_MAX then [.esc, .data x] else [.data x], false) := by
  rcases enc_cases x with ⟨hx, henc, hesc, hshifted⟩ | ⟨hx, henc, hplain⟩
  · simp only [henc, decodeBytes, hesc, hshifted, hx, if_true]
  · simp only [henc, decodeBytes, hplain, BitVec.not_le.2 hx, if_false]

/-- Without the escape bytes, one logical byte is left of its wire form. -/
theorem filter_decodeBytes_enc (x : Byte) :
    (decodeBytes false (enc x)).1.filter (fun c => c ≠ .esc) = [.data x] := by
  rw [decodeBytes_enc]
  split <;> rfl

/-- The second byte of an escape pair is never a reserved value. -/
theorem add_shift_range {x : Byte} (hx : x ≤ MK_MAX) : 4 ≤ x + SHIFT ∧ x + SHIFT ≤ 7 := by
  simp only [MK_MAX, SHIFT] at *
  constructor <;> bv_omega

/-- The wire form of a logical byte in the numbers of R102. -/
theorem enc_wire (x : Byte) : enc x = [x] ∧ 4 ≤ x ∨ enc x = [0, x + 4] ∧ 4 ≤ x + 4 ∧ x + 4 ≤ 7 := by
  rcases enc_cases x with ⟨hx, henc, -, -⟩ | ⟨hx, henc, -⟩
  · exact .inr ⟨henc, add_shift_range hx⟩
  · simp only [MK_MAX] at hx
    exact .inl ⟨henc, by bv_omega⟩

/-- A run of wire forms decodes to the bytes they stand for: each wire form hands the next one a clear flag. -/
theorem decodeBytes_flatMap_enc (xs : List Byte) :
    (decodeBytes false (xs.flatMap enc)).2 = false ∧
      (decodeBytes false (xs.flatMap enc)).1.filter (fun c => c ≠ .esc) = xs.map .data := by
  induction xs with
  | nil => exact ⟨rfl, rfl⟩
  | cons x xs ih =>
    obtain ⟨hflag, hdata⟩ := ih
    have hclear : (decodeBytes false (enc x)).2 = false := by rw [decodeBytes_enc]
    rw [List.flatMap_cons, decodeBytes_append, hclear, List.filter_append, filter_decodeBytes_enc, hdata]
    exact ⟨hflag, rfl⟩

/-- Settles O5: the two wire forms by `enc_wire`, their decoding by induction on the list of logical bytes. -/
theorem wireFormDecodesToItself : Obligations.WireFormDecodesToItself :=
  ⟨enc_wire, decodeBytes_flatMap_enc⟩

end Sys2Proof.Machine

/-! The statements of 41_checksum.md: what the four primitives do to an accumulator (R110 to R113), and which changes of the
summed bytes the checksum does and does not see (R115). -/

namespace Sys2Proof.Machine

/-! ### The accumulators (41_checksum.md R110 to R113) -/

/-- What is written to an accumulator is read back. -/
@[simp] theorem accumValue_setAccum (acc : Accum) (x : Byte) (s : State) : accumValue acc (setAccum acc x s) = x := by
  cases acc <;> rfl

/-- The complement of a sum in the numbers of R112. -/
theorem neg_eq_ofNat_complement (x : Byte) : -x = BitVec.ofNat 8 ((256 - x.toNat) % 256) := by
  apply BitVec.eq_of_toNat_eq
  rw [BitVec.toNat_neg, BitVec.toNat_ofNat, Nat.mod_mod]

/-- The test of R113 accepts the complement of the sum and no other byte. -/
theorem csumCheck_eq (acc : Accum) (c : Byte) (s : State) : csumCheck acc c s =
    (decide (c = -accumValue acc s), setAccum acc (accumValue acc s + c) s) := by
  simp only [csumCheck, csumAdd, accumValue_setAccum, beq_eq_decide, eq_neg_iff_add_eq_zero, add_comm c]

theorem exec_csumInit (acc : Accum) (s : State) : exec (.csumInit acc) s = .next (setAccum acc 0 s) := rfl

theorem exec_csumAdd (acc : Accum) (v : Byte) (s : State) :
    exec (.csumAdd acc v) s = .next (setAccum acc (accumValue acc s + v) s) := rfl

theorem exec_csumFinal (acc : Accum) (s : State) : exec (.csumFinal acc) s =
    .next (returnValue (.value (BitVec.ofNat 8 ((256 - (accumValue acc s).toNat) % 256))) s) := by
  rw [← neg_eq_ofNat_complement]; rfl

theorem exec_csumCheck (acc : Accum) (c : Byte) (s : State) : exec (.csumCheck acc c) s = .next
    (returnValue (.accepted (decide (c = -accumValue acc s))) (setAccum acc (accumValue acc s + c) s)) := by
  rw [exec, execCsumCheck, csumCheck_eq]

/-- Settles O42: the equations of the three primitives, each at the two accumulators. -/
theorem checksumPrimitivesCompute : Obligations.ChecksumPrimitivesCompute :=
  fun s v => ⟨exec_csumInit .rx s, exec_csumInit .tx s, exec_csumAdd .rx v s, exec_csumAdd .tx v s,
    exec_csumFinal .rx s, exec_csumFinal .tx s⟩

/-- Settles O43: the equation of CSUM_CHECK at the two accumulators; the verdict is `csumCheck_eq`. -/
theorem checksumCheckAcceptsOneByte : Obligations.ChecksumCheckAcceptsOneByte :=
  fun s c => ⟨exec_csumCheck .rx c s, exec_csumCheck .tx c s⟩

/-! ### What the sum sees (41_checksum.md R115) -/

theorem byteSum_perm {xs ys : List Byte} (h : xs.Perm ys) : byteSum xs = byteSum ys := by
  rw [byteSum_eq, byteSum_eq, h.sum_eq]

theorem byteSum_cons (x : Byte) (xs : List Byte) : byteSum (x :: xs) = x + byteSum xs := by
  rw [byteSum_eq, byteSum_eq, List.sum_cons]

theorem byteSum_append (xs ys : List Byte) : byteSum (xs ++ ys) = byteSum xs + byteSum ys := by
  simp only [byteSum_eq, List.sum_append]

/-- Changing every byte by its difference changes the sum by the sum of the differences. -/
theorem byteSum_zipWith_add {xs ds : List Byte} (h : xs.length = ds.length) :
    byteSum (List.zipWith (· + ·) xs ds) = byteSum xs + byteSum ds := by
  rw [byteSum_eq, byteSum_eq, byteSum_eq, List.sum_add_sum_eq_sum_zipWith_of_length_eq xs ds h]

/-- The byte that a single-bit flip of bit `k` is made with has that bit set (R115's `2^k`). -/
theorem getLsbD_bit {k : Nat} (hk : k < 8) : ((1 <<< k : Nat) : Byte).getLsbD k = true := by
  rw [BitVec.natCast_eq_ofNat, BitVec.getLsbD_ofNat, Nat.testBit_shiftLeft]
  simp [hk]

/-- One flipped bit is another byte: bit `k` itself differs. -/
theorem xor_bit_ne (x : Byte) {k : Nat} (hk : k < 8) : x ^^^ ((1 <<< k : Nat) : Byte) ≠ x := by
  intro h
  have hflip : (x ^^^ ((1 <<< k : Nat) : Byte)).getLsbD k = !x.getLsbD k := by
    rw [BitVec.getLsbD_xor, getLsbD_bit hk, Bool.xor_true]
  rw [h] at hflip
  exact (Bool.eq_not_self _).1 hflip

/-- The sum tells two values of one summed byte apart. -/
theorem byteSum_replace_inj {xs ys : List Byte} {x y : Byte} :
    byteSum (xs ++ x :: ys) = byteSum (xs ++ y :: ys) ↔ x = y := by
  simp only [byteSum_append, byteSum_cons, add_right_inj, add_left_inj]

/-- After the summed bytes, the check passes for their checksum byte alone (R113). -/
theorem byteSum_add_eq_zero_iff {xs : List Byte} {c : Byte} : byteSum xs + c = 0 ↔ c = checksumOf xs := by
  rw [checksumOf, eq_neg_iff_add_eq_zero, add_comm]

/-- Settles O55: a flipped bit gives another byte (`xor_bit_ne`), which neither the sum nor the check takes for the
right one. -/
theorem checksumSeesBitFlipsNotOrder : Obligations.ChecksumSeesBitFlipsNotOrder := by
  refine ⟨fun xs ys => byteSum_perm, fun xs ds hlen hzero => ?_, fun xs ys x k hk hsum => ?_, fun xs k hk hpass => ?_⟩
  · rw [byteSum_zipWith_add hlen, hzero, add_zero]
  · exact xor_bit_ne x hk (byteSum_replace_inj.1 hsum)
  · exact xor_bit_ne (checksumOf xs) hk (byteSum_add_eq_zero_iff.1 hpass)

end Sys2Proof.Machine

/-! The statements of 42_rx.md over one received byte: what each receive class does (R120 to R133), and that only the
right checksum byte reaches the transmit side (R120). -/

namespace Sys2Proof.Machine

/-! ### Reading a received byte as its class (30_encoding.md R72) -/

/-- A row that classifies `v` in every context of `p` is the row of every wire byte that decodes to `v` there. -/
theorem readsData_of_classify {p : Ctx → Prop} {v : Byte} {i : Instr} (h : ∀ c, p c → classifyData c v = i) :
    ReadsData p v i := by
  intro c b hc hd
  rw [decode_of_rx (rxWord_kind b), rxWord_byte, decodeRx_of_data (Prod.ext hd rfl), h c hc]

/-- Without the flag, a byte is the same row in every context that agrees on the rest. -/
theorem decode_rxWord {c : Ctx} (b : Byte) (hc : c.rxEsc = false) :
    decode (.ev c) (rxWord b) = .ok (decodeRx { c with rxEsc := false } b) := by
  rw [decode_of_rx (rxWord_kind b), rxWord_byte, ← hc]

/-! ### The escape byte and the markers (R121 to R125) -/

/-- Settles O16: the escape byte is its own row, and RX_ESC is one update of the receive registers. -/
theorem escapePrefixSetsOnlyTheFlag : Obligations.EscapePrefixSetsOnlyTheFlag :=
  ⟨fun _ hc => decode_rxWord ESC hc, fun _ => ⟨_, rfl, rxEffect_of_eq rfl⟩⟩

/-- The effect of a start marker, RESYNC exactly if a frame was in progress (R121). -/
theorem rxMarker_effect (m : Marker) (s : State) : RxEffect s (rxMarker m s)
    { s.rxRegs with rxSum := 0, isSvc := m == .svc, isGrp := m == .grp, rxState := .waitAddress }
    (if s.rxState = .idle then s.out else s.out.withLabel .resync) := by
  unfold rxMarker
  split <;> exact rxEffect_of_eq rfl

/-- Settles O17: the three markers are one operation with its kind (`rxMarker_effect`). -/
theorem markersStartAFrame : Obligations.MarkersStartAFrame :=
  ⟨fun _ hc => ⟨decode_rxWord MK_SVC hc, decode_rxWord MK_REG hc, decode_rxWord MK_GRP hc⟩,
    fun s => ⟨⟨_, rfl, rxMarker_effect .svc s⟩, ⟨_, rfl, rxMarker_effect .reg s⟩, ⟨_, rfl, rxMarker_effect .grp s⟩⟩⟩

/-! ### Data bytes, by receive state (R126 to R133) -/

/-- Settles O18: Idle selects the two rows, and both answer the state they got. -/
theorem idleEventsChangeNothing : Obligations.IdleEventsChangeNothing := by
  refine fun s v => ⟨readsData_of_classify fun c hc => ?_, rfl, fun c w hc hk => ?_, rfl⟩
  · simp only [classifyData, hc]
  · simp only [decode_of_tick hk, decodeTick, hc]

/-- Settles O19: bit 7 selects the row before `isGrp` is looked at, and `discard` sums nothing. -/
theorem overheardReplyIsDiscarded : Obligations.OverheardReplyIsDiscarded := by
  refine fun s v => ⟨fun hv => readsData_of_classify fun c hc => ?_, _, rfl, rxEffect_of_eq rfl⟩
  simp only [classifyData, hc, hasReplyBit_eq, hv, if_true]

/-- Settles O20: the two branches of RX_ADDR_UNI. -/
theorem unicastAddressMustMatch : Obligations.UnicastAddressMustMatch := by
  refine fun s v => ⟨fun hv => readsData_of_classify fun c ⟨hs, hg⟩ => ?_, ?_⟩
  · simp only [classifyData, hs, hg, hasReplyBit_eq, hv, Bool.false_eq_true, if_false]
  · by_cases hv : v = s.addr
    · exact ⟨_, if_pos hv, fun _ => rxEffect_of_eq rfl, fun hne => absurd hv hne⟩
    · exact ⟨_, if_neg hv, fun heq => absurd heq hv, fun _ => rxEffect_of_eq rfl⟩

/-- Settles O21: `isGrp` selects the row, which is one update of the receive registers. -/
theorem groupAddressIsHeld : Obligations.GroupAddressIsHeld := by
  refine fun s v => ⟨fun hv => readsData_of_classify fun c ⟨hs, hg⟩ => ?_, _, rfl, rxEffect_of_eq rfl⟩
  simp only [classifyData, hs, hg, hasReplyBit_eq, hv, Bool.false_eq_true, if_false, if_true]

/-- The group comparison in the words of R130. -/
theorem groupMatch_iff (m g a : Byte) : groupMatch m g a = true ↔ m &&& g = m &&& a := beq_iff_eq

/-- Settles O22: the mask is summed before the two branches of RX_GMASK part. -/
theorem groupMaskDecides : Obligations.GroupMaskDecides := by
  refine fun s v => ⟨readsData_of_classify fun c hs => ?_, ?_⟩
  · simp only [classifyData, hs]
  · by_cases hm : v &&& s.grpAddr = v &&& s.addr
    · exact ⟨_, if_pos ((groupMatch_iff ..).2 hm), fun _ => rxEffect_of_eq rfl, fun hne => absurd hm hne⟩
    · exact ⟨_, if_neg (mt (groupMatch_iff ..).1 hm), fun heq => absurd heq hm, fun _ => rxEffect_of_eq rfl⟩

/-- Settles O23: RX_LEN is one update of the receive registers, for every length. -/
theorem lengthByteIsLatched : Obligations.LengthByteIsLatched := by
  refine fun s v => ⟨readsData_of_classify fun c hs => ?_, _, rfl, rxEffect_of_eq rfl⟩
  simp only [classifyData, hs]

/-- The last part of RX_DATA: the byte is counted, and the last one ends the payload (R132). -/
def countPayload (s : State) : State :=
  { s with rxIdx := s.rxIdx + 1, rxState := if s.rxIdx + 1 = s.rxLen then .waitChecksum else s.rxState }

theorem countPayload_rxRegs (s : State) : (countPayload s).rxRegs = { s.rxRegs with
    rxIdx := s.rxRegs.rxIdx + 1
    rxState := if s.rxRegs.rxIdx + 1 = s.rxRegs.rxLen then .waitChecksum else s.rxRegs.rxState } := rfl

/-- RX_DATA with room: summed, stored, counted (R132, R53). -/
theorem execRxData_inRange {s : State} (v : Byte) (hc : s.rxIdx.toNat < s.params.bufCap) :
    execRxData v s = .next (countPayload (memWrite s.rxIdx.toNat v (csumAdd .rx v s))) :=
  congrArg (Host.Outcome.next ∘ countPayload) (if_pos hc)

/-- RX_DATA without room: summed, labelled, counted (R132). -/
theorem execRxData_outOfRange {s : State} (v : Byte) (hc : s.params.bufCap ≤ s.rxIdx.toNat) :
    execRxData v s = .next (countPayload (label .overflowDrop (csumAdd .rx v s))) :=
  congrArg (Host.Outcome.next ∘ countPayload) (if_neg (Nat.not_lt.2 hc))

/-- Settles O24: with room, one write to the canonical buffer; without, a label. -/
theorem payloadByteIsSummedCountedAndStored : Obligations.PayloadByteIsSummedCountedAndStored := by
  refine fun s v hw => ⟨readsData_of_classify fun c hs => by simp only [classifyData, hs], ?_⟩
  rcases Nat.lt_or_ge s.rxIdx.toNat s.params.bufCap with hc | hc
  · refine ⟨_, execRxData_inRange v hc, ?_, memWrite_txRegs .., memWrite_addr .., ?_,
      fun _ => ⟨memWrite_out .., memWrite_bufByte_same (s := csumAdd .rx v s) hw hc, fun i => memWrite_bufByte_other⟩,
      fun hfull => absurd hc (Nat.not_lt.2 hfull)⟩
    · rw [countPayload_rxRegs, memWrite_rxRegs]; rfl
    · exact ⟨memWrite_events .., memWrite_storeRdata .., memWrite_params .., memWrite_bufInit ..⟩
  · exact ⟨_, execRxData_outOfRange v hc, rfl, rfl, rfl, ⟨rfl, rfl, rfl, rfl⟩,
      fun hroom => absurd hroom (Nat.not_lt.2 hc), fun _ => ⟨rfl, fun _ => rfl⟩⟩

/-- RX_CSUM with a sum that is not zero (R133). -/
theorem execRxCsum_fail {s : State} {v : Byte} (h : s.rxSum + v ≠ 0) : execRxCsum v s =
    .next (label .checksumFail { s with rxSum := s.rxSum + v, rxState := .idle }) :=
  if_neg (mt beq_iff_eq.1 h)

/-- RX_CSUM with a sum of zero (R133). -/
theorem execRxCsum_pass {s : State} {v : Byte} (h : s.rxSum + v = 0) :
    execRxCsum v s = dispatch { s with rxSum := 0, rxState := .idle } := by
  rw [← h]
  exact if_pos (beq_iff_eq.2 h)

/-- Settles O25: the two outcomes of the sum, and no dispatch writes `rxState` (`dispatch_frame`). -/
theorem checksumByteEndsTheFrame : Obligations.ChecksumByteEndsTheFrame := by
  refine fun s v => ⟨readsData_of_classify fun c hs => ?_, fun h => ⟨_, execRxCsum_fail h, rxEffect_of_eq rfl⟩,
    execRxCsum_pass, fun t ht => ?_⟩
  · simp only [classifyData, hs]
  · by_cases h : s.rxSum + v = 0
    · obtain ⟨hregs, -⟩ := dispatch_frame ((execRxCsum_pass h).symm.trans ht)
      exact congrArg RxRegs.rxState hregs
    · obtain rfl := Host.Outcome.next.inj ((execRxCsum_fail h).symm.trans ht)
      rfl

/-! ### A byte that does not complete a right frame (R120) -/

/-- A byte of class `c` is, in state `s`, the checksum byte of a frame that passes (R133). -/
def RightChecksum (c : RxClass) (s : State) : Prop := ∃ v, c = .data v ∧ s.rxState = .waitChecksum ∧ s.rxSum + v = 0

/-- The state after a byte that is not the right checksum byte: what `rxStep` does, with no way to stop. -/
def takeRx (c : RxClass) (s : State) : State :=
  match c, s.rxState with
  | .data v, .waitData => memWrite s.rxIdx.toNat v (afterRx c s)
  | _, _ => afterRx c s

theorem rxStep_eq_takeRx {c : RxClass} {s : State} (h : ¬RightChecksum c s) : rxStep c s = .next (takeRx c s) := by
  cases c with
  | esc | mark => rfl
  | data v =>
    cases hs : s.rxState with
    | waitChecksum =>
      have hz : ¬s.rxSum + v = 0 := fun hz => h ⟨v, rfl, hs, hz⟩
      simp only [rxStep, takeRx, hs, if_neg hz]
    | _ => simp only [rxStep, takeRx, hs]

/-- Only WaitData writes the buffer (R132). -/
theorem takeRx_cases (c : RxClass) (s : State) : takeRx c s = afterRx c s ∨
    ∃ v, c = .data v ∧ s.rxState = .waitData ∧ takeRx c s = memWrite s.rxIdx.toNat v (afterRx c s) := by
  unfold takeRx
  split
  next v hs => exact .inr ⟨v, rfl, hs, rfl⟩
  · exact .inl rfl

@[simp] theorem takeRx_addr (c : RxClass) (s : State) : (takeRx c s).addr = s.addr := by
  rcases takeRx_cases c s with h | ⟨v, -, -, h⟩ <;> simp [h]
@[simp] theorem takeRx_params (c : RxClass) (s : State) : (takeRx c s).params = s.params := by
  rcases takeRx_cases c s with h | ⟨v, -, -, h⟩ <;> simp [h]
@[simp] theorem takeRx_txRegs (c : RxClass) (s : State) : (takeRx c s).txRegs = s.txRegs := by
  rcases takeRx_cases c s with h | ⟨v, -, -, h⟩ <;> simp [h]
@[simp] theorem takeRx_rxRegs (c : RxClass) (s : State) : (takeRx c s).rxRegs = rxNext s.addr c s.rxRegs := by
  rcases takeRx_cases c s with h | ⟨v, -, -, h⟩ <;> simp [h]
@[simp] theorem takeRx_out (c : RxClass) (s : State) : (takeRx c s).out =
    { s.out with labels := s.out.labels ++ rxLabels s.addr s.params.bufCap c s.rxRegs } := by
  rcases takeRx_cases c s with h | ⟨v, -, -, h⟩ <;> simp [h]

/-- Settles O47: such a byte does what `takeRx` says, which keeps the address and the transmit registers, and adds only
labels to the emptied record. -/
theorem receivingDoesNotTouchTheTransmitSide : Obligations.ReceivingDoesNotTouchTheTransmitSide := by
  intro s b rest he h
  have hwrong : ¬RightChecksum (decodeByte s.rxEsc b).1 (arrive (rxWord b) rest s) := by
    rintro ⟨v, hv, hs, hz⟩
    exact h v hv ⟨by simpa using hs, by simpa using hz⟩
  have hstep : step s = .next (takeRx (decodeByte s.rxEsc b).1 (arrive (rxWord b) rest s)) := by
    rw [step_eq_rxStep he (rxWord_kind b), rxWord_byte, rxStep_eq_takeRx hwrong]
  exact ⟨_, hstep, by simp⟩

end Sys2Proof.Machine

/-! The statements of 42_rx.md over whole frames (R134): what the wire bytes of a request do to a device it is addressed
to and to any other. -/

namespace Sys2Proof.Machine

/-! ### One received byte, apart from the port -/

/-- The state with these event words next on the port. -/
def State.withPort (s : State) (evs : List EvWord) : State := { s with events := evs }

theorem withPort_self {s : State} {evs : List EvWord} (h : s.events = evs) : s.withPort evs = s := h ▸ rfl

theorem takeRx_waitData {s : State} (v : Byte) (hs : s.rxState = .waitData) :
    takeRx (.data v) s = memWrite s.rxIdx.toNat v (afterRx (.data v) s) := by
  simp only [takeRx, hs]

theorem takeRx_of_ne {s : State} (c : RxClass) (hs : s.rxState ≠ .waitData) : takeRx c s = afterRx c s := by
  rcases takeRx_cases c s with h | ⟨-, -, hdata, -⟩
  · exact h
  · exact absurd hdata hs

theorem memWrite_withPort (i : Nat) (v : Byte) (s : State) (evs : List EvWord) :
    memWrite i v (s.withPort evs) = (memWrite i v s).withPort evs := by
  by_cases hi : i < s.params.bufCap
  · rw [memWrite, memWrite, if_pos hi]
    exact if_pos hi
  · rw [memWrite_outOfRange hi]
    exact if_neg hi

/-- One write, in range or not, as a read sees it (20_memory.md R52, R53). -/
theorem memWrite_bufByte {s : State} (hw : Memory.wf s = true) (i : Nat) (v : Byte) (j : Nat) :
    (memWrite i v s).bufByte j = if j = i ∧ j < s.params.bufCap then v else s.bufByte j := by
  split_ifs with h
  · obtain ⟨rfl, hc⟩ := h
    exact memWrite_bufByte_same hw hc
  · by_contra hne
    obtain ⟨hj, hc, -⟩ := memWrite_changes hw hne
    exact h ⟨hj, hc⟩

/-- What a received byte does is independent of what comes after it. -/
theorem takeRx_withPort (c : RxClass) (s : State) (evs : List EvWord) :
    takeRx c (s.withPort evs) = (takeRx c s).withPort evs := by
  by_cases hs : s.rxState = .waitData
  · cases c with
    | esc | mark => rfl
    | data v => rw [takeRx_waitData v hs, takeRx_waitData v (s := s.withPort evs) hs, ← memWrite_withPort]; rfl
  · rw [takeRx_of_ne c hs, takeRx_of_ne c (s := s.withPort evs) hs]; rfl

/-- The state after a byte that is not the right checksum byte, by what DECODE answers: its class and the flag after it.
The output record is that of its step alone (R120, 10_state.md R41). -/
def heard (d : RxClass × Bool) (s : State) : State := takeRx d.1 { s with rxEsc := d.2, out := {} }

@[simp] theorem heard_rxRegs (d : RxClass × Bool) (s : State) :
    (heard d s).rxRegs = rxNext s.addr d.1 { s.rxRegs with rxEsc := d.2 } := takeRx_rxRegs d.1 _
@[simp] theorem heard_txRegs (d : RxClass × Bool) (s : State) : (heard d s).txRegs = s.txRegs := takeRx_txRegs d.1 _
@[simp] theorem heard_addr (d : RxClass × Bool) (s : State) : (heard d s).addr = s.addr := takeRx_addr d.1 _
@[simp] theorem heard_params (d : RxClass × Bool) (s : State) : (heard d s).params = s.params := takeRx_params d.1 _
@[simp] theorem heard_out (d : RxClass × Bool) (s : State) :
    (heard d s).out = { labels := rxLabels s.addr s.params.bufCap d.1 { s.rxRegs with rxEsc := d.2 } } :=
  takeRx_out d.1 _

theorem arrive_rxWord (b : Byte) (evs rest : List EvWord) (s : State) : arrive (rxWord b) rest (s.withPort evs) =
    State.withPort { s with rxEsc := (decodeByte s.rxEsc b).2, out := {} } rest := by
  rw [arrive_eq, decodeByte_flag, rxWord_byte, if_pos (rxWord_kind b)]
  rfl

/-- A step on a received byte that is not the right checksum byte (R120). -/
theorem step_rxWord {s : State} {b : Byte} (rest : List EvWord) (hb : ¬RightChecksum (decodeByte s.rxEsc b).1 s) :
    step (s.withPort (rxWord b :: rest)) = .next ((heard (decodeByte s.rxEsc b) s).withPort rest) := by
  rw [step_eq_rxStep rfl (rxWord_kind b), rxWord_byte, arrive_rxWord, heard, ← takeRx_withPort]
  exact rxStep_eq_takeRx hb

/-! ### Hearing a run of wire bytes (10_state.md R41) -/

/-- The wire bytes `bs` lead from `s` to `t`, and none of them is the right checksum byte of a frame. -/
inductive Hears : List Byte → State → State → Prop
  | nil (s : State) : Hears [] s s
  | cons {b : Byte} {bs : List Byte} {s t : State} (hb : ¬RightChecksum (decodeByte s.rxEsc b).1 s)
      (h : Hears bs (heard (decodeByte s.rxEsc b) s) t) : Hears (b :: bs) s t

theorem Hears.append {bs cs : List Byte} {s t u : State} (h : Hears bs s t) (h' : Hears cs t u) :
    Hears (bs ++ cs) s u := by
  induction h with
  | nil => exact h'
  | cons hb _ ih => exact .cons hb (ih h')

/-- The ports of 10_state.md R40 stay still. -/
def Output.Still (o : Output) : Prop := o.hcall = none ∧ o.store = none ∧ o.wire = none

theorem heard_still (d : RxClass × Bool) (s : State) : (heard d s).out.Still := by simp [Output.Still]

/-- A run of received bytes raises no port if its last step before did not. -/
theorem Hears.still {bs : List Byte} {s t : State} (h : Hears bs s t) (hs : s.out.Still) : t.out.Still := by
  induction h with
  | nil => exact hs
  | cons _ _ ih => exact ih (heard_still _ _)

theorem run_succ {s t : State} (k : Nat) (h : step s = .next t) :
    Host.Core.run Sys2Proof.core (k + 1) s = Host.Core.run Sys2Proof.core k t := by
  have hcore : Sys2Proof.core.step s = .next t := h
  simp only [Host.Core.run, hcore]

theorem quietRun_succ {s t : State} {k : Nat} (h : step s = .next t) (hstill : t.out.Still) (hk : QuietRun k t) :
    QuietRun (k + 1) s := by
  rw [QuietRun, runOutputs_step k h]
  exact List.forall_mem_cons.2 ⟨hstill, hk⟩

theorem Hears.run_withPort {bs : List Byte} {s t : State} (h : Hears bs s t) (rest : List EvWord) :
    Host.Core.run Sys2Proof.core bs.length (s.withPort (bs.map rxWord ++ rest)) = .next (t.withPort rest) ∧
      QuietRun bs.length (s.withPort (bs.map rxWord ++ rest)) := by
  induction h with
  | nil => exact ⟨rfl, fun o ho => by simp at ho⟩
  | @cons b bs s t hb _ ih =>
    have hstep := step_rxWord (bs.map rxWord ++ rest) hb
    exact ⟨(run_succ _ hstep).trans ih.1, quietRun_succ hstep (heard_still _ _) ih.2⟩

/-- Bytes that are heard are a quiet run of the engine, one step for each. -/
theorem Hears.run {bs : List Byte} {s t : State} {rest : List EvWord} (h : Hears bs s t)
    (he : s.events = bs.map rxWord ++ rest) :
    Host.Core.run Sys2Proof.core bs.length s = .next (t.withPort rest) ∧ QuietRun bs.length s := by
  have hrun := h.run_withPort rest
  rwa [withPort_self he] at hrun

/-! ### Hearing one logical byte (40_codec.md R102) -/

/-- The state after a logical byte. -/
def heardData (v : Byte) (s : State) : State := heard (.data v, false) s

/-- All wire bytes of a logical byte but the last are an escape byte or none, and after them the last one decodes to the
value (R101, R102). -/
theorem hears_enc_init (v : Byte) {s : State} (he : s.rxEsc = false) :
    ∃ es b u, enc v = es ++ [b] ∧ Hears es s u ∧ decodeByte u.rxEsc b = (.data v, false) ∧
      (u = s ∨ u = heard (.esc, true) s) := by
  rcases enc_cases v with ⟨-, henc, hesc, hshifted⟩ | ⟨-, henc, hplain⟩
  · have hd : decodeByte s.rxEsc ESC = (.esc, true) := he ▸ hesc
    refine ⟨[ESC], v + SHIFT, _, henc, .cons ?_ (.nil _), ?_, .inr (by rw [hd])⟩
    · rintro ⟨w, hw, -⟩
      simp [hd] at hw
    · rw [hd]; exact hshifted
  · exact ⟨[], v, s, henc, .nil s, he ▸ hplain, .inl rfl⟩

/-- A logical byte that is not the right checksum byte. -/
theorem hears_enc {v : Byte} {s : State} (he : s.rxEsc = false) (hv : ¬RightChecksum (.data v) s) :
    Hears (enc v) s (heardData v s) := by
  obtain ⟨es, b, u, henc, hes, hb, hu⟩ := hears_enc_init v he
  rw [henc]
  refine hes.append (.cons ?_ ?_)
  · rcases hu with rfl | rfl <;> rw [hb] <;> exact hv
  · rw [hb]
    rcases hu with rfl | rfl <;> exact .nil _

theorem heardData_rxRegs {s : State} (he : s.rxEsc = false) (v : Byte) :
    (heardData v s).rxRegs = rxNext s.addr (.data v) s.rxRegs := by
  have hflag : { s.rxRegs with rxEsc := false } = s.rxRegs := by rw [← he]; rfl
  rw [heardData, heard_rxRegs, hflag]

theorem hears_enc_of_ne (v : Byte) {s : State} (he : s.rxEsc = false) (hs : s.rxState ≠ .waitChecksum) :
    Hears (enc v) s (heardData v s) := hears_enc he fun ⟨_, _, hcsum, _⟩ => hs hcsum

/-- Only WaitData writes the buffer (R132). -/
theorem heard_sameBuffer {d : RxClass × Bool} {s : State} (hs : s.rxState ≠ .waitData) : SameBuffer s (heard d s) := by
  intro i
  rw [heard, takeRx_of_ne d.1 (s := { s with rxEsc := d.2, out := {} }) hs]
  rfl

theorem heardData_bufByte {v : Byte} {s : State} (hw : Memory.wf s = true) (hs : s.rxState = .waitData) (i : Nat) :
    (heardData v s).bufByte i = if i = s.rxIdx.toNat ∧ i < s.params.bufCap then v else s.bufByte i := by
  rw [heardData, heard, takeRx_waitData v (s := { s with rxEsc := false, out := {} }) hs]
  exact memWrite_bufByte (s := afterRx (.data v) { s with rxEsc := false, out := {} }) hw _ v i

/-! ### Hearing a list of logical bytes -/

/-- The state after logical bytes. -/
def heardAll (vs : List Byte) (s : State) : State := vs.foldl (fun t v => heardData v t) s

@[simp] theorem heardAll_nil (s : State) : heardAll [] s = s := rfl
@[simp] theorem heardAll_cons (v : Byte) (vs : List Byte) (s : State) :
    heardAll (v :: vs) s = heardAll vs (heardData v s) := rfl

/-- What logical bytes leave alone when they complete no right frame. -/
structure DataFrame (s t : State) : Prop where
  txRegs : t.txRegs = s.txRegs
  addr : t.addr = s.addr
  params : t.params = s.params
  isSvc : t.isSvc = s.isSvc
  isGrp : t.isGrp = s.isGrp
  rxEsc : s.rxEsc = false → t.rxEsc = false
  canonical : Memory.wf s = true → Memory.wf t = true

theorem rxNext_data_rxEsc (a v : Byte) (r : RxRegs) : (rxNext a (.data v) r).rxEsc = r.rxEsc := by
  simp only [rxNext]
  (repeat' split) <;> rfl

theorem takeRx_wf (c : RxClass) {s : State} (hw : Memory.wf s = true) : Memory.wf (takeRx c s) = true := by
  rcases takeRx_cases c s with h | ⟨v, -, -, h⟩ <;> rw [h]
  · exact hw
  · exact memWrite_wf hw

theorem heardData_frame (v : Byte) (s : State) : DataFrame s (heardData v s) := by
  have hregs : (heardData v s).rxRegs = _ := heard_rxRegs (.data v, false) s
  obtain ⟨hsvc, hgrp⟩ := rxNext_data_kind s.addr v { s.rxRegs with rxEsc := false }
  exact ⟨heard_txRegs _ s, heard_addr _ s, heard_params _ s, (congrArg RxRegs.isSvc hregs).trans hsvc,
    (congrArg RxRegs.isGrp hregs).trans hgrp, fun _ => (congrArg RxRegs.rxEsc hregs).trans (rxNext_data_rxEsc ..),
    fun hw => takeRx_wf (.data v) (s := { s with rxEsc := false, out := {} }) hw⟩

theorem DataFrame.trans {s t u : State} (h : DataFrame s t) (h' : DataFrame t u) : DataFrame s u :=
  ⟨h'.txRegs.trans h.txRegs, h'.addr.trans h.addr, h'.params.trans h.params, h'.isSvc.trans h.isSvc,
    h'.isGrp.trans h.isGrp, h'.rxEsc ∘ h.rxEsc, h'.canonical ∘ h.canonical⟩

theorem heardAll_frame (vs : List Byte) (s : State) : DataFrame s (heardAll vs s) := by
  induction vs generalizing s with
  | nil => exact ⟨rfl, rfl, rfl, rfl, rfl, id, id⟩
  | cons v vs ih => exact (heardData_frame v s).trans (ih _)

/-- Logical bytes in Idle: each is heard and ignored (R126). -/
theorem hears_idle (vs : List Byte) {s : State} (he : s.rxEsc = false) (hs : s.rxState = .idle) :
    Hears (vs.flatMap enc) s (heardAll vs s) ∧ (heardAll vs s).rxState = .idle ∧ SameBuffer s (heardAll vs s) := by
  induction vs generalizing s with
  | nil => exact ⟨.nil s, hs, fun _ => rfl⟩
  | cons v vs ih =>
    have hidle : (heardData v s).rxState = .idle := by
      have hregs := congrArg RxRegs.rxState (heardData_rxRegs he v)
      simpa [rxNext, State.rxRegs, hs] using hregs
    obtain ⟨hears, hlast, hbuf⟩ := ih ((heardData_frame v s).rxEsc he) hidle
    refine ⟨(hears_enc_of_ne v he (by simp [hs])).append hears, hlast, fun i => ?_⟩
    exact (hbuf i).trans (heard_sameBuffer (by simp [hs]) i)

/-! ### The payload (R132) -/

/-- The receiver stands before the last `n` payload bytes of a frame. -/
structure AwaitsPayload (n : Nat) (s : State) : Prop where
  rxEsc : s.rxEsc = false
  rxState : s.rxState = if n = 0 then .waitChecksum else .waitData
  count : s.rxIdx.toNat + n = s.rxLen.toNat

theorem AwaitsPayload.rxRegs_heardData {n : Nat} {s : State} (h : AwaitsPayload (n + 1) s) (v : Byte) :
    (heardData v s).rxRegs = { s.rxRegs with
      rxSum := s.rxSum + v, rxIdx := s.rxIdx + 1, rxState := if n = 0 then .waitChecksum else .waitData } := by
  have hlast : s.rxIdx + 1 = s.rxLen ↔ n = 0 := by
    have := h.count
    bv_omega
  have hs : s.rxState = .waitData := h.rxState
  have he := h.rxEsc
  rw [heardData_rxRegs he]
  simp only [rxNext, State.rxRegs, hs, he, hlast]

theorem AwaitsPayload.next {n : Nat} {s : State} (h : AwaitsPayload (n + 1) s) (v : Byte) :
    AwaitsPayload n (heardData v s) := by
  have hregs := h.rxRegs_heardData v
  have hidx : (heardData v s).rxIdx = s.rxIdx + 1 := congrArg RxRegs.rxIdx hregs
  have hlen : (heardData v s).rxLen = s.rxLen := congrArg RxRegs.rxLen hregs
  refine ⟨(congrArg RxRegs.rxEsc hregs).trans h.rxEsc, congrArg RxRegs.rxState hregs, ?_⟩
  have := h.count
  bv_omega

/-- The payload is heard up to the state before the checksum byte. -/
theorem hears_payload {vs : List Byte} {s : State} (h : AwaitsPayload vs.length s) :
    Hears (vs.flatMap enc) s (heardAll vs s) ∧ AwaitsPayload 0 (heardAll vs s) := by
  induction vs generalizing s with
  | nil => exact ⟨.nil s, h⟩
  | cons v vs ih =>
    have hs : s.rxState = .waitData := h.rxState
    obtain ⟨hears, hlast⟩ := ih (h.next v)
    exact ⟨(hears_enc_of_ne v h.rxEsc (by simp [hs])).append hears, hlast⟩

/-- Every payload byte is summed, and the length stays as latched. -/
theorem payload_summed {vs : List Byte} {s : State} (h : AwaitsPayload vs.length s) :
    (heardAll vs s).rxSum = s.rxSum + byteSum vs ∧ (heardAll vs s).rxLen = s.rxLen := by
  induction vs generalizing s with
  | nil => exact ⟨(add_zero _).symm, rfl⟩
  | cons v vs ih =>
    obtain ⟨hsum, hlen⟩ := ih (h.next v)
    have hregs := h.rxRegs_heardData v
    have hsum' : (heardData v s).rxSum = s.rxSum + v := congrArg RxRegs.rxSum hregs
    exact ⟨by rw [heardAll_cons, hsum, hsum', byteSum_cons, add_assoc], hlen.trans (congrArg RxRegs.rxLen hregs)⟩

/-- Every payload byte is stored at its index if there is room, and no other byte is written. -/
theorem payload_stored {vs : List Byte} {s : State} (h : AwaitsPayload vs.length s) (hw : Memory.wf s = true)
    (i : Nat) : (heardAll vs s).bufByte i =
      if s.rxIdx.toNat ≤ i ∧ i < s.params.bufCap then vs.getD (i - s.rxIdx.toNat) (s.bufByte i) else s.bufByte i := by
  induction vs generalizing s with
  | nil => simp
  | cons v vs ih =>
    have hs : s.rxState = .waitData := h.rxState
    have hframe := heardData_frame v s
    have hidx : (heardData v s).rxIdx.toNat = s.rxIdx.toNat + 1 := by
      have hsucc : (heardData v s).rxIdx = s.rxIdx + 1 := congrArg RxRegs.rxIdx (h.rxRegs_heardData v)
      have := h.count
      simp only [List.length_cons] at this
      bv_omega
    rw [heardAll_cons, ih (h.next v) (hframe.canonical hw), hidx, hframe.params, heardData_bufByte hw hs]
    rcases Nat.lt_trichotomy i s.rxIdx.toNat with hlt | rfl | hgt
    · rw [if_neg (by omega), if_neg (by omega), if_neg (by omega)]
    · rw [if_neg (by omega)]
      simp
    · have hsub : i - s.rxIdx.toNat = i - (s.rxIdx.toNat + 1) + 1 := by omega
      rw [if_neg (c := i = _ ∧ _) (by omega), hsub, List.getD_cons_succ]
      simp only [Nat.succ_le_of_lt hgt, hgt.le]

/-! ### The address fields (R127 to R130) -/

theorem rxNext_unicast {a v : Byte} {r : RxRegs} (hs : r.rxState = .waitAddress) (hg : r.isGrp = false) :
    rxNext a (.data v) r =
      if !v.msb && v == a then { r with rxState := .waitLength, rxSum := r.rxSum + v }
      else { r with rxState := .idle } := by
  simp only [rxNext, hs, hg, hasReplyBit_eq]
  cases v.msb <;> simp

theorem rxNext_groupAddress {a v : Byte} {r : RxRegs} (hs : r.rxState = .waitAddress) (hg : r.isGrp = true) :
    rxNext a (.data v) r =
      if v.msb then { r with rxState := .idle }
      else { r with rxState := .waitGroupMask, rxSum := r.rxSum + v, grpAddr := v } := by
  simp only [rxNext, hs, hg, hasReplyBit_eq, if_true]

theorem rxNext_groupMask {a v : Byte} {r : RxRegs} (hs : r.rxState = .waitGroupMask) :
    rxNext a (.data v) r =
      { r with rxState := if groupMatch v r.grpAddr a then .waitLength else .idle, rxSum := r.rxSum + v } := by
  simp only [rxNext, hs]

/-- The fields of a request before its length byte: its address, or its group address and mask (30_encoding.md R74). -/
def headerFields : Request → List Byte
  | .svc a _ | .reg a _ => [a]
  | .grp g m _ => [g, m]

theorem body_eq (r : Request) : r.body = headerFields r ++ BitVec.ofNat 8 r.payload.length :: r.payload := by
  cases r <;> rfl

/-- From `s` the address fields `fields` are heard, and they lead to WaitLength if the frame is `taken` and to Idle if
not. -/
structure HearsHeader (fields : List Byte) (taken : Bool) (s : State) : Prop where
  hears : Hears (fields.flatMap enc) s (heardAll fields s)
  rxState : (heardAll fields s).rxState = if taken then .waitLength else .idle
  rxSum : taken = true → (heardAll fields s).rxSum = s.rxSum + byteSum fields
  buffer : SameBuffer s (heardAll fields s)

/-- A byte of the address fields, heard before the length byte. -/
theorem hears_field (v : Byte) {s : State} (he : s.rxEsc = false)
    (hs : s.rxState = .waitAddress ∨ s.rxState = .waitGroupMask) :
    Hears (enc v) s (heardData v s) ∧ SameBuffer s (heardData v s) := by
  refine ⟨hears_enc_of_ne v he ?_, heard_sameBuffer ?_⟩ <;> rcases hs with h | h <;> simp [h]

/-- The field that decides whether the frame is taken (R128, R130). -/
theorem hearsHeader_last {v : Byte} {taken : Bool} {s : State} (he : s.rxEsc = false)
    (hs : s.rxState = .waitAddress ∨ s.rxState = .waitGroupMask)
    (hstate : (heardData v s).rxState = if taken then .waitLength else .idle)
    (hsum : taken = true → (heardData v s).rxSum = s.rxSum + v) : HearsHeader [v] taken s := by
  obtain ⟨hears, hbuf⟩ := hears_field v he hs
  exact ⟨by simpa using hears, hstate, fun h => (hsum h).trans (by simp [byteSum]), hbuf⟩

/-- The address of a service or regular frame (R127, R128). -/
theorem hearsHeader_unicast (a : Byte) {s : State} (he : s.rxEsc = false) (hs : s.rxState = .waitAddress)
    (hg : s.isGrp = false) : HearsHeader [a] (!a.msb && a == s.addr) s := by
  have hregs := (heardData_rxRegs he a).trans (rxNext_unicast hs hg)
  refine hearsHeader_last he (.inl hs) ((congrArg RxRegs.rxState hregs).trans ?_) fun htaken => ?_
  · split <;> rfl
  · rw [if_pos htaken] at hregs
    exact congrArg RxRegs.rxSum hregs

/-- The group address and the mask of a group frame (R127, R129, R130). After a group address with bit 7 set the mask
arrives in Idle. -/
theorem hearsHeader_group (g m : Byte) {s : State} (he : s.rxEsc = false) (hs : s.rxState = .waitAddress)
    (hg : s.isGrp = true) : HearsHeader [g, m] (!g.msb && (m &&& g) == (m &&& s.addr)) s := by
  have hregs := (heardData_rxRegs he g).trans (rxNext_groupAddress hs hg)
  obtain ⟨hears, hbuf⟩ := hears_field g he (.inl hs)
  have he' : (heardData g s).rxEsc = false := (heardData_frame g s).rxEsc he
  cases hr : g.msb with
  | true =>
    rw [hr, if_pos rfl] at hregs
    obtain ⟨hrest, hidle, hsame⟩ := hears_idle [m] he' (congrArg RxRegs.rxState hregs)
    exact ⟨hears.append hrest, hidle, nofun, fun i => (hsame i).trans (hbuf i)⟩
  | false =>
    rw [hr, if_neg Bool.false_ne_true] at hregs
    have hmask : (heardData g s).rxState = .waitGroupMask := congrArg RxRegs.rxState hregs
    have hsum : (heardData g s).rxSum = s.rxSum + g := congrArg RxRegs.rxSum hregs
    have hgrp : (heardData g s).grpAddr = g := congrArg RxRegs.grpAddr hregs
    have hregs' := (heardData_rxRegs he' m).trans (rxNext_groupMask hmask)
    have htaken : groupMatch m (heardData g s).grpAddr (heardData g s).addr = ((m &&& g) == (m &&& s.addr)) := by
      rw [hgrp, (heardData_frame g s).addr]; rfl
    have hlast : HearsHeader [m] ((m &&& g) == (m &&& s.addr)) (heardData g s) :=
      hearsHeader_last he' (.inr hmask) (htaken ▸ congrArg RxRegs.rxState hregs')
        fun _ => congrArg RxRegs.rxSum hregs'
    refine ⟨hears.append hlast.hears, hlast.rxState, fun h => ?_, fun i => (hlast.buffer i).trans (hbuf i)⟩
    rw [heardAll_cons, hlast.rxSum h, hsum, byteSum_cons g, add_assoc]

/-! ### Whole requests (30_encoding.md R74, 42_rx.md R134) -/

/-- The state after a start marker. -/
def heardMarker (m : Marker) (s : State) : State := heard (.mark m, false) s

/-- A marker is heard in any receive state (R121). -/
theorem hears_marker (m : Marker) {s : State} (he : s.rxEsc = false) : Hears [m.byte] s (heardMarker m s) := by
  have hd : decodeByte s.rxEsc m.byte = (.mark m, false) := by rw [he]; cases m <;> rfl
  refine .cons ?_ (hd ▸ .nil _)
  rintro ⟨v, hv, -⟩
  simp [hd] at hv

/-- After its marker the address fields of a request are taken exactly if it is addressed to the device (R134). -/
theorem hearsHeader_request (r : Request) (s : State) :
    HearsHeader (headerFields r) (addressedTo r s.addr) (heardMarker r.marker s) := by
  cases r with
  | svc a p | reg a p => exact hearsHeader_unicast a (s := heardMarker _ s) rfl rfl rfl
  | grp g m p => exact hearsHeader_group g m (s := heardMarker _ s) rfl rfl rfl

/-- The receive registers after the length byte of `n` payload bytes (R131). -/
theorem heardLength_rxRegs {n : Nat} {s : State} (he : s.rxEsc = false) (hs : s.rxState = .waitLength) (hn : n ≤ 255) :
    (heardData (BitVec.ofNat 8 n) s).rxRegs = { s.rxRegs with
      rxState := if n = 0 then .waitChecksum else .waitData
      rxSum := s.rxSum + BitVec.ofNat 8 n, rxLen := BitVec.ofNat 8 n, rxIdx := 0 } := by
  have hzero : BitVec.ofNat 8 n = 0 ↔ n = 0 := by bv_omega
  have hregs : s.rxRegs.rxState = .waitLength := hs
  rw [heardData_rxRegs he]
  simp only [rxNext, hregs, hzero]
  rfl

theorem awaitsPayload_heardLength {n : Nat} {s : State} (he : s.rxEsc = false) (hs : s.rxState = .waitLength)
    (hn : n ≤ 255) : AwaitsPayload n (heardData (BitVec.ofNat 8 n) s) := by
  have hregs := heardLength_rxRegs he hs hn
  have hidx : (heardData (BitVec.ofNat 8 n) s).rxIdx = 0 := congrArg RxRegs.rxIdx hregs
  have hlen : (heardData (BitVec.ofNat 8 n) s).rxLen = BitVec.ofNat 8 n := congrArg RxRegs.rxLen hregs
  refine ⟨(congrArg RxRegs.rxEsc hregs).trans he, congrArg RxRegs.rxState hregs, ?_⟩
  bv_omega

/-- The receiver stands in `u` before the checksum byte; the length byte and the payload `p` came after state `a`. -/
structure PayloadHeard (p : List Byte) (a u : State) : Prop where
  hears : Hears ((BitVec.ofNat 8 p.length :: p).flatMap enc) a u
  rxState : u.rxState = .waitChecksum
  rxSum : u.rxSum = a.rxSum + byteSum (BitVec.ofNat 8 p.length :: p)
  rxLen : u.rxLen = BitVec.ofNat 8 p.length
  buffer : Memory.wf a = true → ∀ i, u.bufByte i =
    if i < a.params.bufCap then p.getD i (a.bufByte i) else a.bufByte i

theorem payloadHeard_of_waitLength {p : List Byte} {a : State} (he : a.rxEsc = false) (hs : a.rxState = .waitLength)
    (hp : p.length ≤ 255) : PayloadHeard p a (heardAll (BitVec.ofNat 8 p.length :: p) a) := by
  have hregs := heardLength_rxRegs he hs hp
  have hawaits := awaitsPayload_heardLength he hs hp
  have hframe := heardData_frame (BitVec.ofNat 8 p.length) a
  have hears := hears_enc_of_ne (BitVec.ofNat 8 p.length) he (by simp [hs])
  have hbuf : SameBuffer a (heardData (BitVec.ofNat 8 p.length) a) := heard_sameBuffer (by simp [hs])
  have hidx : (heardData (BitVec.ofNat 8 p.length) a).rxIdx = 0 := congrArg RxRegs.rxIdx hregs
  obtain ⟨hrest, hlast⟩ := hears_payload hawaits
  obtain ⟨hsum, hlen⟩ := payload_summed hawaits
  refine ⟨hears.append hrest, hlast.rxState, ?_, hlen.trans (congrArg RxRegs.rxLen hregs), fun hw i => ?_⟩
  · have hsum' : (heardData (BitVec.ofNat 8 p.length) a).rxSum = a.rxSum + BitVec.ofNat 8 p.length :=
      congrArg RxRegs.rxSum hregs
    rw [heardAll_cons, hsum, hsum', byteSum_cons, add_assoc]
  · rw [heardAll_cons, payload_stored hawaits (hframe.canonical hw), hidx, hframe.params, hbuf i]
    simp

/-- The receiver stands in `u` before the checksum byte of request `r`, whose other bytes it heard from `s` on. -/
structure AtChecksum (r : Request) (s u : State) : Prop where
  rxState : u.rxState = .waitChecksum
  rxSum : u.rxSum = byteSum r.body
  isSvc : u.isSvc = decide (r.marker = .svc)
  isGrp : u.isGrp = decide (r.marker = .grp)
  rxLen : u.rxLen = BitVec.ofNat 8 r.payload.length
  buffer : Memory.wf s = true → ∀ i, u.bufByte i =
    if i < s.params.bufCap then r.payload.getD i (s.bufByte i) else s.bufByte i
  txRegs : u.txRegs = s.txRegs
  addr : u.addr = s.addr
  params : u.params = s.params

/-- The bytes of a request addressed to the device, up to the checksum byte (R134). -/
theorem hears_request {r : Request} {s : State} (he : s.rxEsc = false) (hlen : r.payload.length ≤ 255)
    (hto : addressedTo r s.addr = true) :
    ∃ u, Hears (r.marker.byte :: r.body.flatMap enc) s u ∧ u.rxEsc = false ∧ AtChecksum r s u := by
  have hheader := hearsHeader_request r s
  have hfields := heardAll_frame (headerFields r) (heardMarker r.marker s)
  have hwait : (heardAll (headerFields r) (heardMarker r.marker s)).rxState = .waitLength := by
    rw [hheader.rxState, if_pos hto]
  have hpayload := payloadHeard_of_waitLength (hfields.rxEsc rfl) hwait hlen
  have hframe := hfields.trans (heardAll_frame (BitVec.ofNat 8 r.payload.length :: r.payload) _)
  refine ⟨_, ?_, hframe.rxEsc rfl, hpayload.rxState, ?_, hframe.isSvc, hframe.isGrp, hpayload.rxLen, fun hw i => ?_,
    hframe.txRegs, hframe.addr, hframe.params⟩
  · rw [body_eq, List.flatMap_append]
    exact (hears_marker r.marker he).append (hheader.hears.append hpayload.hears)
  · have hzero : (heardMarker r.marker s).rxSum = 0 := rfl
    rw [hpayload.rxSum, hheader.rxSum hto, hzero, zero_add, body_eq, byteSum_append]
  · rw [hpayload.buffer (hfields.canonical hw), hheader.buffer i, hfields.params]
    rfl

/-- An escape byte leaves all of that as it is. -/
theorem AtChecksum.heard_esc {r : Request} {s u : State} (h : AtChecksum r s u) :
    AtChecksum r s (heard (.esc, true) u) :=
  ⟨h.rxState, h.rxSum, h.isSvc, h.isGrp, h.rxLen, h.buffer, h.txRegs, h.addr, h.params⟩

/-- A checksum byte that does not complete the sum to zero (R133). -/
theorem hears_wrongChecksum {c : Byte} {u : State} (he : u.rxEsc = false) (hs : u.rxState = .waitChecksum)
    (hsum : u.rxSum + c ≠ 0) : Hears (enc c) u (heardData c u) ∧ (heardData c u).rxState = .idle ∧
      (heardData c u).out.labels = [.checksumFail] := by
  have hwrong : ¬RightChecksum (.data c) u := fun ⟨_, hv, _, hz⟩ => hsum (RxClass.data.inj hv ▸ hz)
  refine ⟨hears_enc he hwrong, (congrArg RxRegs.rxState (heardData_rxRegs he c)).trans ?_, ?_⟩
  · simp only [rxNext, State.rxRegs, hs]
  · rw [heardData, heard_out]
    simp only [rxLabels, State.rxRegs, hs, if_neg hsum]

/-- Before the checksum byte `c`, or before the last wire byte of its escape pair (R134). -/
theorem hears_request_init {r : Request} {s : State} (c : Byte) (he : s.rxEsc = false) (hlen : r.payload.length ≤ 255)
    (hto : addressedTo r s.addr = true) :
    ∃ bs b u, r.marker.byte :: r.tailWith c = bs ++ [b] ∧ Hears bs s u ∧ decodeByte u.rxEsc b = (.data c, false) ∧
      AtChecksum r s u := by
  obtain ⟨u, hears, he', hat⟩ := hears_request he hlen hto
  obtain ⟨es, b, u', henc, hes, hb, hu'⟩ := hears_enc_init c he'
  refine ⟨_, b, u', ?_, hears.append hes, hb, ?_⟩
  · simp [Request.tailWith, henc]
  · rcases hu' with rfl | rfl
    · exact hat
    · exact hat.heard_esc

/-- Settles O57: all wire bytes but the last are heard (`hears_request_init`), and the right checksum byte completes the
sum of the fields to zero. -/
theorem addressedRequestReachesDispatch : Obligations.AddressedRequestReachesDispatch := by
  intro s r rest hw he hlen hto hev
  obtain ⟨bs, b, u, hwire, hears, hb, hat⟩ := hears_request_init (checksumOf r.body) he hlen hto
  have hwire' : r.wire = bs ++ [b] := hwire
  have hcount : r.wire.length - 1 = bs.length := by simp [hwire']
  have hrun := hears.run (rest := rxWord b :: rest) (by simp [hev, hwire'])
  rw [hcount]
  have hcsum : u.rxSum + checksumOf r.body = 0 := by rw [hat.rxSum]; exact byteSum_add_eq_zero_iff.2 rfl
  refine ⟨hrun.2, _, rxWord b, hrun.1, rfl, ?_, hcsum, hat.isSvc, hat.isGrp, hat.rxLen, hat.buffer hw, hat.txRegs,
    hat.addr, hat.params⟩
  exact (checksumByteEndsTheFrame u _).1 _ b hat.rxState (congrArg Prod.fst hb)

/-- Settles O59: the wrong checksum byte is heard too, and does what R133 says of a sum that is not zero. -/
theorem wrongChecksumFrameIsNotDispatched : Obligations.WrongChecksumFrameIsNotDispatched := by
  intro s r c rest hw he hlen hto hc wire hev
  obtain ⟨u, hears, he', hat⟩ := hears_request he hlen hto
  have hsum : u.rxSum + c ≠ 0 := by
    rw [hat.rxSum]
    exact mt byteSum_add_eq_zero_iff.1 hc
  obtain ⟨hlast, hidle, hlabels⟩ := hears_wrongChecksum he' hat.rxState hsum
  have hwire : wire = (r.marker.byte :: r.body.flatMap enc) ++ enc c := by simp [wire, Request.tailWith]
  have hframe := heardData_frame c u
  have hbuf : SameBuffer u (heardData c u) := heard_sameBuffer (by simp [hat.rxState])
  obtain ⟨hcall, hstore, -⟩ := heard_still (.data c, false) u
  obtain ⟨hrun, hquiet⟩ := (hwire ▸ hears.append hlast : Hears wire s _).run hev
  exact ⟨hquiet, _, hrun, hidle, hframe.rxEsc he', rfl, hlabels, hcall, hstore,
    fun i => (hbuf i).trans (hat.buffer hw i), hframe.txRegs.trans hat.txRegs, hframe.addr.trans hat.addr⟩

/-- Settles O58: the address fields lead to Idle (`hearsHeader_request`), and Idle ignores the rest of the frame with
any checksum byte (`hears_idle`; log 25, DEDUCED). -/
theorem requestForAnotherDeviceIsIgnored : Obligations.RequestForAnotherDeviceIsIgnored := by
  intro s r c rest he hlen hto wire hev
  have hheader := hearsHeader_request r s
  have hfields := heardAll_frame (headerFields r) (heardMarker r.marker s)
  have hidle : (heardAll (headerFields r) (heardMarker r.marker s)).rxState = .idle := by
    rw [hheader.rxState, hto]; rfl
  obtain ⟨hrest, hlast, hbuf⟩ :=
    hears_idle (BitVec.ofNat 8 r.payload.length :: r.payload ++ [c]) (hfields.rxEsc rfl) hidle
  have hframe := hfields.trans (heardAll_frame (BitVec.ofNat 8 r.payload.length :: r.payload ++ [c]) _)
  have hwire : wire = [r.marker.byte] ++ ((headerFields r).flatMap enc ++
      (BitVec.ofNat 8 r.payload.length :: r.payload ++ [c]).flatMap enc) := by
    simp [wire, Request.tailWith, body_eq]
  have hears : Hears wire s _ := hwire ▸ (hears_marker r.marker he).append (hheader.hears.append hrest)
  obtain ⟨hcall, hstore, -⟩ := (hheader.hears.append hrest).still (heard_still _ s)
  obtain ⟨hrun, hquiet⟩ := hears.run hev
  exact ⟨hquiet, _, hrun, hlast, hframe.rxEsc rfl, hcall, hstore, rfl, hframe.txRegs, hframe.addr,
    fun i => (hbuf i).trans (hheader.buffer i)⟩

end Sys2Proof.Machine

/-! The statements of 43_tx.md over one tick: how a tick word is read (R150) and what each transmit class does (R154 to
R158). -/

namespace Sys2Proof.Machine

/-! ### Reading a tick as its class (43_tx.md R150) -/

theorem readsTick_of_decodeTick {p : Ctx → Prop} {i : Instr} (h : ∀ c, p c → decodeTick c = i) : ReadsTick p i :=
  fun c _ hc hk => (decode_of_tick hk).trans (congrArg Except.ok (h c hc))

/-! ### Sending one logical byte (40_codec.md R100, 43_tx.md R153) -/

theorem txSend_of_txEsc {x : TxRegs} (v : Byte) (y : TxRegs) (he : x.txEsc = true) :
    txSend v x y = ({ y with txEsc := false }, some (v + SHIFT)) := if_pos he

theorem txSend_of_reserved {x : TxRegs} {v : Byte} (y : TxRegs) (he : x.txEsc = false) (hv : v ≤ MK_MAX) :
    txSend v x y = ({ x with txEsc := true }, some ESC) := by
  simp only [txSend, he, hv, Bool.false_eq_true, if_false, if_true]

theorem txSend_of_plain {x : TxRegs} {v : Byte} (y : TxRegs) (he : x.txEsc = false) (hv : MK_MAX < v) :
    txSend v x y = ({ y with txEsc := false }, some v) := by
  simp only [txSend, he, BitVec.not_le.2 hv, Bool.false_eq_true, if_false]

/-- `txSend` is what the statements call sending a byte. -/
theorem sendsByte_txSend (v : Byte) (s : State) (y : TxRegs) :
    SendsByte s
      { s.withTx (txSend v s.txRegs y).1 with out := { s.out with wire := (txSend v s.txRegs y).2.or s.out.wire } }
      v { y with txEsc := false } := by
  refine ⟨fun ⟨he, hv⟩ => ?_, fun ⟨he, hv⟩ => ?_, fun he => ?_⟩
  · rw [txSend_of_plain (x := s.txRegs) y he hv]
    exact txEffect_of_eq rfl
  · rw [txSend_of_reserved (x := s.txRegs) y he hv]
    exact txEffect_of_eq rfl
  · rw [txSend_of_txEsc (x := s.txRegs) v y he]
    exact txEffect_of_eq rfl

/-- TxByte, and `f` when the byte is complete: what the classes from TX_ADDR on do with their byte (R153). -/
def sendThen (v : Byte) (addSum : Bool) (f : State → State) (s : State) : State :=
  if (txByte v addSum s).1 then f (txByte v addSum s).2 else (txByte v addSum s).2

/-- If `f` takes the registers to `y`, then that is sending the byte with `y` at its end. -/
theorem sendsByte_sendThen {v : Byte} {addSum : Bool} {f : State → State} {s : State} (y : TxRegs)
    (hf : ∀ o, f { s with txEsc := false, txSum := if addSum then s.txSum + v else s.txSum, out := o } =
      { s.withTx { y with txEsc := false } with out := o }) :
    SendsByte s (sendThen v addSum f s) v { y with txEsc := false } := by
  rw [sendThen, txByte_then y hf]
  exact sendsByte_txSend v s y

/-- The draw counter is no part of what a tick that sends a byte is said to do (20_memory.md R52). -/
theorem SendsByte.of_withDraws {s t : State} {k : Nat} {v : Byte} {x : TxRegs}
    (h : SendsByte { s with draws := k } t v x) : SendsByte s t v x := h

/-! ### The transmit classes (R154 to R158) -/

theorem exec_txStart (s : State) : exec .txStart s = .next { emit s.txMark s with txState := .sendAddress } := rfl

theorem exec_txAddr (s : State) : exec .txAddr s =
    .next (sendThen (replyAddress s.addr) true (fun t => { t with txState := .sendLength }) s) := rfl

theorem exec_txLen (s : State) : exec .txLen s =
    .next (sendThen s.txLen true (fun t => { t with txState := .sendData }) s) := rfl

theorem exec_txData (s : State) : exec .txData s = .next (sendThen (memRead s.txIdx.toNat s).1 true
    (fun t => { t with txIdx := t.txIdx + 1 }) (memRead s.txIdx.toNat s).2) := rfl

theorem exec_txCsum (s : State) : exec .txCsum s =
    .next (sendThen (-s.txSum) false (fun t => { t with txState := .idle }) s) := rfl

/-- Settles O27: TX_START is one update of the transmit registers and the wire. -/
theorem startTickSendsTheMarker : Obligations.StartTickSendsTheMarker :=
  ⟨readsTick_of_decodeTick fun c hc => by simp only [decodeTick, hc],
    fun s => ⟨_, exec_txStart s, txEffect_of_eq rfl⟩⟩

/-- Settles O28: TxByte of the reply address, which bit 7 keeps above the escaped values. -/
theorem addressTickSendsTheReplyAddress : Obligations.AddressTickSendsTheReplyAddress :=
  ⟨readsTick_of_decodeTick fun c hc => by simp only [decodeTick, hc],
    fun s => ⟨_, exec_txAddr s,
      sendsByte_sendThen { s.txRegs with txSum := s.txSum + replyAddress s.addr, txState := .sendLength } fun _ => rfl,
      BitVec.not_le.1 (replyAddress_not_escaped s.addr)⟩⟩

/-- Settles O29: TxByte of `txLen`. -/
theorem lengthTickSendsTheLength : Obligations.LengthTickSendsTheLength :=
  ⟨readsTick_of_decodeTick fun c hc => by simp only [decodeTick, hc],
    fun s => ⟨_, exec_txLen s,
      sendsByte_sendThen { s.txRegs with txSum := s.txSum + s.txLen, txState := .sendData } fun _ => rfl⟩⟩

/-- Settles O30: TxByte of the byte that MemRead gives, which in range is the buffer's; the read moves nothing but the
draw counter. -/
theorem dataTickSendsTheBufferByte : Obligations.DataTickSendsTheBufferByte := by
  refine ⟨readsTick_of_decodeTick fun c ⟨hst, hmore⟩ => by simp only [decodeTick, hst, hmore, if_true], fun s => ?_⟩
  obtain ⟨k, hk⟩ := memRead_draws s.txIdx.toNat s
  refine ⟨_, (memRead s.txIdx.toNat s).1, exec_txData s, fun hi => ?_, ?_⟩
  · rw [memRead_inRange hi]
  · rw [hk]
    apply SendsByte.of_withDraws (k := k)
    exact sendsByte_sendThen
      { s.txRegs with txSum := s.txSum + (memRead s.txIdx.toNat s).1, txIdx := s.txIdx + 1 } fun _ => rfl

/-- Settles O31: TxByte of the complement of `txSum`, not summed. -/
theorem checksumTickEndsTheReply : Obligations.ChecksumTickEndsTheReply :=
  ⟨readsTick_of_decodeTick fun c ⟨hst, hmore⟩ => by simp [decodeTick, hst, hmore],
    fun s => ⟨_, exec_txCsum s, sendsByte_sendThen { s.txRegs with txState := .idle } fun _ => rfl⟩⟩

end Sys2Proof.Machine

/-! The statement of 43_tx.md over a whole reply (R159): the ticks after `prime` put its wire bytes on the line, one a
tick, and then nothing. -/

namespace Sys2Proof.Machine

/-! ### One tick of a device whose reply lies in the buffer -/

/-- A tick reads the buffer only where payload is left to send. -/
theorem txNext_congr (a : Byte) {d d' : Byte} {x : TxRegs} (h : x.txIdx < x.txLen → d = d') :
    txNext a d x = txNext a d' x := by
  by_cases hlt : x.txIdx < x.txLen
  · rw [h hlt]
  · simp only [txNext, if_neg hlt]

theorem afterTx_effect (d : Byte) (k : Nat) (s : State) : TxEffect s (afterTx d k s) (txNext s.addr d s.txRegs).1
    { s.out with wire := (txNext s.addr d s.txRegs).2.or s.out.wire } :=
  ⟨rfl, rfl, rfl, rfl, fun _ => rfl, rfl, rfl, rfl, rfl⟩

theorem arrive_tickWord (rest : List EvWord) (s : State) :
    arrive tickWord rest s = { s with events := rest, out := {} } := by
  rw [arrive, if_neg (by decide)]

/-- A step on a tick when all bytes of the reply are below BUF_CAP (R150): no draw of 20_memory.md R52 goes out. -/
theorem step_tickWord {s : State} {rest : List EvWord} (he : s.events = tickWord :: rest)
    (hcap : s.txLen.toNat ≤ s.params.bufCap) :
    ∃ t, step s = .next t ∧
      TxEffect { s with events := rest, out := {} } t (txNext s.addr (s.bufByte s.txIdx.toNat) s.txRegs).1
        { wire := (txNext s.addr (s.bufByte s.txIdx.toNat) s.txRegs).2 } := by
  obtain ⟨k, hstep⟩ := step_eq_afterTx he tickWord_kind
  have hread : s.txIdx < s.txLen → (memRead s.txIdx.toNat s).1 = s.bufByte s.txIdx.toNat := fun hlt => by
    rw [memRead_inRange (Nat.lt_of_lt_of_le hlt hcap)]
  have heffect := afterTx_effect (memRead s.txIdx.toNat s).1 k { s with events := rest, out := {} }
  rw [arrive_tickWord] at hstep
  rw [← txNext_congr s.addr (x := s.txRegs) hread]
  rw [Option.or_none] at heffect
  exact ⟨_, hstep, heffect⟩

/-! ### Sending a run of wire bytes (10_state.md R41) -/

/-- At address `a` and with `mem` in the buffer, as many ticks as `bs` is long take the transmit registers from the
first to the second and put `bs` on the line, one byte each. -/
inductive Sends (a : Byte) (mem : Nat → Byte) : List Byte → TxRegs → TxRegs → Prop
  | nil (x : TxRegs) : Sends a mem [] x x
  | cons {b : Byte} {bs : List Byte} {x y z : TxRegs} (htick : txNext a (mem x.txIdx.toNat) x = (y, some b))
      (h : Sends a mem bs y z) : Sends a mem (b :: bs) x z

theorem Sends.append {a : Byte} {mem : Nat → Byte} {bs cs : List Byte} {x y z : TxRegs} (h : Sends a mem bs x y)
    (h' : Sends a mem cs y z) : Sends a mem (bs ++ cs) x z := by
  induction h with
  | nil => exact h'
  | cons htick _ ih => exact .cons htick (ih h')

/-- What ticks leave alone, but for the port and the draw counter (10_state.md R37). -/
structure TickFrame (s t : State) : Prop where
  rxRegs : t.rxRegs = s.rxRegs
  addr : t.addr = s.addr
  params : t.params = s.params
  buffer : SameBuffer s t

theorem TickFrame.trans {s t u : State} (h : TickFrame s t) (h' : TickFrame t u) : TickFrame s u :=
  ⟨h'.rxRegs.trans h.rxRegs, h'.addr.trans h.addr, h'.params.trans h.params,
    fun i => (h'.buffer i).trans (h.buffer i)⟩

theorem lineBytes_succ {s t : State} (k : Nat) (h : step s = .next t) :
    lineBytes (k + 1) s = t.out.wire.toList ++ lineBytes k t := by
  rw [lineBytes, h]

/-- What `k` ticks do to a device: they put `bs` on the line, leave `rest` pending and the transmit registers at `z`. -/
def TicksLeadTo (k : Nat) (s : State) (bs : List Byte) (z : TxRegs) (rest : List EvWord) : Prop :=
  lineBytes k s = bs ∧
    ∃ t, Host.Core.run Sys2Proof.core k s = .next t ∧ t.txRegs = z ∧ t.events = rest ∧ TickFrame s t

/-- One tick, and then `k` more. -/
theorem ticksLeadTo_succ {s : State} {x y z : TxRegs} {o : Option Byte} {k : Nat} {bs : List Byte} {rest : List EvWord}
    (hx : s.txRegs = x) (hcap : x.txLen.toNat ≤ s.params.bufCap)
    (hev : s.events = List.replicate (k + 1) tickWord ++ rest)
    (htick : txNext s.addr (s.bufByte x.txIdx.toNat) x = (y, o))
    (hmore : ∀ t : State, t.txRegs = y → TickFrame s t → t.events = List.replicate k tickWord ++ rest →
      TicksLeadTo k t bs z rest) :
    TicksLeadTo (k + 1) s (o.toList ++ bs) z rest := by
  subst hx
  obtain ⟨t, hstep, htx, hout, hrx, haddr, hbuf, hport, -, hparams, -⟩ := step_tickWord hev hcap
  have hnext : txNext s.addr (s.bufByte s.txIdx.toNat) s.txRegs = (y, o) := htick
  rw [hnext] at htx hout
  have hframe : TickFrame s t := ⟨hrx, haddr, hparams, hbuf⟩
  obtain ⟨hline, u, hrun, hu, hrest, hframe'⟩ := hmore t htx hframe hport
  refine ⟨?_, u, (run_succ k hstep).trans hrun, hu, hrest, hframe.trans hframe'⟩
  rw [lineBytes_succ k hstep, hout, hline]

/-- Ticks in Idle put nothing on the line (R152). -/
theorem ticksLeadTo_idle (k : Nat) {s : State} {x : TxRegs} {rest : List EvWord} (hx : s.txRegs = x)
    (hidle : x.txState = .idle) (hcap : x.txLen.toNat ≤ s.params.bufCap)
    (hev : s.events = List.replicate k tickWord ++ rest) : TicksLeadTo k s [] x rest := by
  induction k generalizing s with
  | zero => exact ⟨rfl, s, rfl, hx, hev, rfl, rfl, rfl, fun _ => rfl⟩
  | succ k ih =>
    refine ticksLeadTo_succ (o := none) hx hcap hev ?_ fun t ht hframe ht' => ih ht (hframe.params ▸ hcap) ht'
    simp only [txNext, hidle]

/-- Bytes that are sent are a run of the engine, one step for each, when the transmitter ends Idle; more ticks add
nothing. -/
theorem Sends.run {bs : List Byte} {x z : TxRegs} {s : State} {rest : List EvWord} (h : Sends s.addr s.bufByte bs x z)
    (hidle : z.txState = .idle) (extra : Nat) (hx : s.txRegs = x) (hcap : x.txLen.toNat ≤ s.params.bufCap)
    (hev : s.events = List.replicate (bs.length + extra) tickWord ++ rest) :
    TicksLeadTo (bs.length + extra) s bs z rest := by
  generalize ha : s.addr = a, hm : s.bufByte = mem at h
  induction h generalizing s with
  | nil x =>
    rw [List.length_nil, Nat.zero_add] at hev ⊢
    exact ticksLeadTo_idle extra hx hidle hcap hev
  | @cons b bs x y z htick _ ih =>
    have hcount : (b :: bs).length + extra = bs.length + extra + 1 := by rw [List.length_cons]; omega
    have hlen : y.txLen = x.txLen := by
      have hframe := txNext_frame a (mem x.txIdx.toNat) x
      rw [htick] at hframe
      exact hframe.1
    rw [hcount] at hev ⊢
    subst ha hm
    exact ticksLeadTo_succ hx hcap hev htick fun t ht hframe ht' =>
      ih hidle ht (by rw [hlen, hframe.params]; exact hcap) ht' hframe.addr (funext hframe.buffer)

/-! ### The fields of a reply (43_tx.md R154 to R158) -/

/-- The transmit registers in the course of a reply, between two logical bytes: the state, the sum and the index. -/
def replyRegs (m n : Byte) (st : TxState) (sum i : Byte) : TxRegs :=
  { primedRegs m n with txState := st, txSum := sum, txIdx := i }

section
variable {a : Byte} {mem : Nat → Byte} {m n : Byte}

/-- One logical byte is sent in its wire form if the class is the same in both halves of an escape pair. -/
theorem sends_enc {v : Byte} {x y : TxRegs} (hx : x.txEsc = false) (hy : y.txEsc = false)
    (h : ∀ e, txNext a (mem x.txIdx.toNat) { x with txEsc := e } =
      txSend v { x with txEsc := e } { y with txEsc := e }) :
    Sends a mem (enc v) x y := by
  have hx' : { x with txEsc := false } = x := by rw [← hx]
  have hy' : { y with txEsc := false } = y := by rw [← hy]
  have hfirst := h false
  rw [hx', hy'] at hfirst
  rcases enc_cases v with ⟨hv, henc, -⟩ | ⟨hv, henc, -⟩ <;> rw [henc]
  · refine .cons (hfirst.trans (txSend_of_reserved y hx hv)) (.cons ((h true).trans ?_) (.nil y))
    rw [txSend_of_txEsc (x := { x with txEsc := true }) v _ rfl]
    exact congrArg (·, some (v + SHIFT)) hy'
  · refine .cons (hfirst.trans ?_) (.nil y)
    rw [txSend_of_plain y hx hv, hy']

theorem sends_marker (c i : Byte) :
    Sends a mem [m] (replyRegs m n .sendStart c i) (replyRegs m n .sendAddress c i) := .cons rfl (.nil _)

theorem sends_address (c i : Byte) : Sends a mem (enc (replyAddress a)) (replyRegs m n .sendAddress c i)
    (replyRegs m n .sendLength (c + replyAddress a) i) := sends_enc rfl rfl fun _ => rfl

theorem sends_length (c i : Byte) : Sends a mem (enc n) (replyRegs m n .sendLength c i)
    (replyRegs m n .sendData (c + n) i) := sends_enc rfl rfl fun _ => rfl

theorem sends_payloadByte {i : Byte} (c : Byte) (hi : i < n) : Sends a mem (enc (mem i.toNat))
    (replyRegs m n .sendData c i) (replyRegs m n .sendData (c + mem i.toNat) (i + 1)) :=
  sends_enc rfl rfl fun _ => if_pos hi

theorem sends_checksum (c : Byte) :
    Sends a mem (enc (-c)) (replyRegs m n .sendData c n) (replyRegs m n .idle c n) :=
  sends_enc rfl rfl fun _ => if_neg (BitVec.lt_irrefl n)

/-- The payload from index `i` on, by the number of bytes left. -/
theorem sends_payload {k : Nat} {i : Byte} (c : Byte) (hk : i.toNat + k = n.toNat) :
    Sends a mem (((List.range' i.toNat k).map mem).flatMap enc) (replyRegs m n .sendData c i)
      (replyRegs m n .sendData (c + byteSum ((List.range' i.toNat k).map mem)) n) := by
  induction k generalizing i c with
  | zero =>
    obtain rfl : i = n := BitVec.eq_of_toNat_eq hk
    have hsum : c + byteSum [] = c := BitVec.add_zero c
    rw [List.range'_zero, List.map_nil, hsum]
    exact .nil _
  | succ k ih =>
    have hlt : i < n := by bv_omega
    have hnext : (i + 1).toNat = i.toNat + 1 := by bv_omega
    have hrest := ih (i := i + 1) (c + mem i.toNat) (by omega)
    rw [hnext, add_assoc, ← byteSum_cons] at hrest
    exact (sends_payloadByte c hlt).append hrest

end

/-- The summed fields of the reply that `prime(m, n)` starts (30_encoding.md R74, 43_tx.md R159). -/
def replyFields (a n : Byte) (mem : Nat → Byte) : List Byte := replyAddress a :: n :: (List.range n.toNat).map mem

/-- The reply on the wire, from `prime` to Idle (R159). -/
theorem sends_reply (a m n : Byte) (mem : Nat → Byte) :
    Sends a mem (m :: (replyFields a n mem ++ [checksumOf (replyFields a n mem)]).flatMap enc) (primedRegs m n)
      (replyRegs m n .idle (byteSum (replyFields a n mem)) n) := by
  have hpayload := sends_payload (a := a) (mem := mem) (m := m) (k := n.toNat) (i := 0) (0 + replyAddress a + n)
    (Nat.zero_add n.toNat)
  have hsum : 0 + replyAddress a + n + byteSum ((List.range n.toNat).map mem) = byteSum (replyFields a n mem) := by
    rw [replyFields, byteSum_cons, byteSum_cons, zero_add, add_assoc]
  have hzero : (0 : Byte).toNat = 0 := rfl
  rw [hzero, ← List.range_eq_range', hsum] at hpayload
  have hwire : m :: (replyFields a n mem ++ [checksumOf (replyFields a n mem)]).flatMap enc =
      [m] ++ (enc (replyAddress a) ++ (enc n ++ (((List.range n.toNat).map mem).flatMap enc ++
        enc (-(byteSum (replyFields a n mem)))))) := by
    simp [replyFields, checksumOf]
  rw [hwire]
  exact (sends_marker 0 0).append ((sends_address 0 0).append ((sends_length _ 0).append
    (hpayload.append (sends_checksum _))))

theorem length_enc (x : Byte) : (enc x).length = 1 + if x ≤ MK_MAX then 1 else 0 := by
  rcases enc_cases x with ⟨hx, henc, -⟩ | ⟨hx, henc, -⟩
  · rw [henc, if_pos hx]; rfl
  · rw [henc, if_neg (BitVec.not_le.2 hx)]; rfl

/-- A frame is as long on the wire as R75 says: one byte more for each escaped field. -/
theorem length_flatMap_enc (xs : List Byte) : (xs.flatMap enc).length + 1 = wireLength xs := by
  induction xs with
  | nil => rfl
  | cons x xs ih =>
    simp only [wireLength, List.flatMap_cons, List.length_append, List.length_cons, List.countP_cons, length_enc,
      decide_eq_true_eq] at ih ⊢
    omega

/-- Settles O56: the reply is sent byte by byte from the primed registers to Idle (`sends_reply`), and the engine runs
what is sent (`Sends.run`). -/
theorem primedReplyGoesOutOnTheWire : Obligations.PrimedReplyGoesOutOnTheWire := by
  intro s m n extra rest hprimed hcap fields ticks hev
  have hsends : Sends s.addr s.bufByte (m :: (fields ++ [checksumOf fields]).flatMap enc) _ _ :=
    sends_reply s.addr m n s.bufByte
  have hticks : ticks = (m :: (fields ++ [checksumOf fields]).flatMap enc).length + extra := by
    rw [List.length_cons, length_flatMap_enc]
  rw [hticks] at hev ⊢
  obtain ⟨hline, t, hrun, ht, hrest, hframe⟩ := hsends.run rfl extra hprimed hcap hev
  exact ⟨hline, t, hrun, congrArg TxRegs.txState ht, hrest, hframe.rxRegs, hframe.addr, hframe.buffer⟩

end Sys2Proof.Machine

/-! The statements of 44_dispatch.md: which operation a frame that passes selects (R170, R173), what each operation does
(R171, R172, R174 to R178), and which received bytes prime a reply (R179). -/

namespace Sys2Proof.Machine

/-! ### The handler call (44_dispatch.md R171, R172, R178) -/

/-- What the handler call reads is the handler's input, and reading it changes nothing. -/
theorem memReadList_handlerInput {s : State} (hin : s.params.inCap ≤ s.params.bufCap) :
    memReadList s.params.inCap 0 s = (handlerInput s, s) := by
  rw [memReadList_inRange (by omega), handlerInput, List.range_eq_range']

theorem callHandler_blocks {s : State} (hin : s.params.inCap ≤ s.params.bufCap)
    (ha : handlerAnswer s.params (handlerInput s) = none) : callHandler s = .fault .handlerBlocks := by
  simp only [callHandler, memReadList_handlerInput hin, ha]

theorem callHandler_replyLength {s : State} {r : List Byte} (hin : s.params.inCap ≤ s.params.bufCap)
    (ha : handlerAnswer s.params (handlerInput s) = some r) (hl : r.length ≠ s.params.outCap) :
    callHandler s = .fault .handlerReplyLength := by
  simp only [callHandler, memReadList_handlerInput hin, ha, if_neg hl]

/-- The state in which the handler has been called and its answer `r` is stored. -/
def answered (r : List Byte) (s : State) : State := memWriteList r 0 (strobeHandler (handlerInput s) s)

/-- Under legal parameters the handler call goes on with an answer of OUT_CAP bytes (R178). -/
theorem callHandler_legal {s : State} (hp : s.params.wf = true) :
    ∃ r, handlerAnswer s.params (handlerInput s) = some r ∧ r.length = s.params.outCap ∧
      callHandler s = .next (answered r s) := by
  obtain ⟨-, -, hin, -⟩ := (params_wf_iff s.params).1 hp
  obtain ⟨r, ha, hl⟩ := legalParametersKeepTheContract s.params hp (handlerInput s)
  exact ⟨r, ha, hl, callHandler_eq hin ha hl⟩

/-- The stored answer stands from index 0 on, and every byte past it is as before. -/
theorem answered_bufByte {s : State} {r : List Byte} (hw : Memory.wf s = true) (hp : s.params.wf = true)
    (hl : r.length = s.params.outCap) (i : Nat) : (answered r s).bufByte i = r.getD i (s.bufByte i) := by
  obtain ⟨-, -, -, hout, -⟩ := (params_wf_iff s.params).1 hp
  have hroom : 0 + r.length ≤ (strobeHandler (handlerInput s) s).params.bufCap := by
    rw [strobeHandler_params]; omega
  rw [answered, memWriteList_bufByte (s := strobeHandler (handlerInput s) s) hw hroom, List.getD_eq_getElem?_getD]
  by_cases hi : i < r.length <;> simp [hi]

theorem answered_sameEnv (r : List Byte) (s : State) : SameEnv s (answered r s) := by simp [SameEnv, answered]

theorem exec_dispatchCmd (c : Byte) (s : State) : exec (.dispatchCmd c) s =
    onNext (callHandler s) fun t => prime MK_REG (capByte s.params.outCap) (label .acceptCmd t) := rfl

theorem exec_dispatchGrp (c : Byte) (s : State) : exec (.dispatchGrp c) s =
    onNext (callHandler s) (label .acceptGrp) := rfl

/-- Settles O32: the handler's answer is stored (`answered`), and `prime` writes all the transmit registers. -/
theorem commandDispatchCallsStoresAndReplies : Obligations.CommandDispatchCallsStoresAndReplies := by
  refine fun s c hw hp => ⟨fun _ => rfl, ?_⟩
  obtain ⟨r, ha, hl, hcall⟩ := callHandler_legal hp
  refine ⟨prime MK_REG (capByte s.params.outCap) (label .acceptCmd (answered r s)), r, ?_, ha, hl,
    answered_bufByte hw hp hl, rfl, ?_, ?_, answered_sameEnv r s, ?_⟩
  · rw [exec_dispatchCmd, hcall, onNext]
  all_goals simp [answered, Output.withLabel]

/-- Settles O33: as for O32, with the label only after the answer is stored. -/
theorem groupDispatchCallsAndStoresOnly : Obligations.GroupDispatchCallsAndStoresOnly := by
  refine fun s c hw hp => ⟨fun _ => rfl, ?_⟩
  obtain ⟨r, ha, hl, hcall⟩ := callHandler_legal hp
  refine ⟨label .acceptGrp (answered r s), r, ?_, ha, hl, answered_bufByte hw hp hl, ?_, ?_, ?_,
    answered_sameEnv r s, ?_⟩
  · rw [exec_dispatchGrp, hcall, onNext]
  all_goals simp [answered, Output.withLabel]

/-- Settles O34: both operations stop exactly where the handler call stops. -/
theorem handlerOutsideItsContractHasNoStep : Obligations.HandlerOutsideItsContractHasNoStep := by
  intro s c hin
  rw [exec_dispatchCmd, exec_dispatchGrp]
  refine ⟨fun ha => ?_, fun r ha hl => ?_, fun r ha hl => ?_⟩
  · rw [callHandler_blocks hin ha]; exact ⟨rfl, rfl⟩
  · rw [callHandler_replyLength hin ha hl]; exact ⟨rfl, rfl⟩
  · rw [callHandler_eq hin ha hl]; exact ⟨⟨_, rfl⟩, _, rfl⟩

/-! ### The service sub-protocol (44_dispatch.md R174 to R177) -/

/-- Settles O36: ECHO is a label and `prime`, one update of the transmit registers. -/
theorem echoRepliesWithTheRequest : Obligations.EchoRepliesWithTheRequest := by
  refine fun s c => ⟨fun g => ?_, echo s, rfl, txEffect_of_eq rfl⟩
  rw [subCommand_svcEcho]; rfl

/-- Settles O39: a byte that is none of the codes is the sub-command `unknown`, whose operation is a label. -/
theorem unknownSubCommandIsDiscarded : Obligations.UnknownSubCommandIsDiscarded := by
  refine fun s c => ⟨fun g b hecho hdescribe hchange => ?_, rfl⟩
  rw [subCommand_unknown hecho hdescribe hchange]; rfl

/-- The answer of two bytes that Describe and ChangeAddress give, under their label. -/
def pairReply (l : Label) (r0 r1 : Byte) (s : State) : State :=
  prime MK_SVC 2 (label l (memWrite 1 r1 (memWrite 0 r0 s)))

/-- What the two bytes do to the buffer. -/
theorem pairReply_bufByte {s : State} (l : Label) (r0 r1 : Byte) (hw : Memory.wf s = true) (hcap : 2 ≤ s.params.bufCap) :
    (pairReply l r0 r1 s).bufByte 0 = r0 ∧ (pairReply l r0 r1 s).bufByte 1 = r1 ∧
      ∀ i, 2 ≤ i → (pairReply l r0 r1 s).bufByte i = s.bufByte i := by
  simp only [pairReply, prime_bufByte, label_bufByte]
  refine ⟨?_, ?_, fun i hi => memWriteList_bufByte_beyond (bs := [r0, r1]) (k := 0) hi⟩
  · rw [memWrite_bufByte_other (by omega), memWrite_bufByte_same hw (by omega)]
  · rw [memWrite_bufByte_same (memWrite_wf hw) (by rw [memWrite_params]; omega)]

section
variable (l : Label) (r0 r1 : Byte) (s : State)

@[simp] theorem pairReply_txRegs : (pairReply l r0 r1 s).txRegs = primedRegs MK_SVC 2 := rfl
@[simp] theorem pairReply_rxRegs : (pairReply l r0 r1 s).rxRegs = s.rxRegs := by simp [pairReply]
@[simp] theorem pairReply_addr : (pairReply l r0 r1 s).addr = s.addr := by simp [pairReply]
@[simp] theorem pairReply_out : (pairReply l r0 r1 s).out = s.out.withLabel l := by simp [pairReply, Output.withLabel]
theorem pairReply_sameEnv : SameEnv s (pairReply l r0 r1 s) := by simp [SameEnv, pairReply]

end

/-- A capacity within the ranges of 00_scope.md R8 fits the byte that carries it. -/
theorem capByte_toNat {n : Nat} (h : n ≤ 255) : (capByte n).toNat = n := by
  rw [capByte, BitVec.toNat_ofNat, Nat.mod_eq_of_lt (by omega)]

/-- The bytes that carry the two capacities are exact under legal parameters. -/
theorem capBytes_exact {p : Params} (hp : p.wf = true) :
    (capByte p.inCap).toNat = p.inCap ∧ (capByte p.outCap).toNat = p.outCap := by
  obtain ⟨-, hcap, hin, hout, -⟩ := (params_wf_iff p).1 hp
  exact ⟨capByte_toNat (hin.trans hcap), capByte_toNat (hout.trans hcap)⟩

theorem describe_eq (s : State) :
    describe s = pairReply .acceptDescribe (capByte s.params.inCap) (capByte s.params.outCap) s := rfl

/-- Settles O37: DESCRIBE is the answer of the two capacities, which their bytes carry exactly. -/
theorem describeReportsTheCapacities : Obligations.DescribeReportsTheCapacities := by
  intro s c hw hp
  obtain ⟨h4, -⟩ := (params_wf_iff s.params).1 hp
  obtain ⟨hin, hout⟩ := capBytes_exact hp
  obtain ⟨h0, h1, hrest⟩ := pairReply_bufByte .acceptDescribe (capByte s.params.inCap) (capByte s.params.outCap) hw
    (by omega)
  refine ⟨fun g => ?_, describe s, rfl, ?_⟩
  · rw [subCommand_svcDescribe hp]; rfl
  · rw [describe_eq, h0, h1]
    exact ⟨hin, hout, hrest, pairReply_txRegs .., pairReply_rxRegs .., pairReply_addr .., pairReply_sameEnv ..,
      pairReply_out ..⟩

/-- The state in which the address is changed to `n` and persisted (R176). -/
def readdressed (n : Byte) (s : State) : State := persist n { s with addr := n }

/-- A ChangeAddress request that validates (R176). -/
theorem changeAddress_accept {s : State} (h4 : 4 ≤ s.params.bufCap)
    (hvalid : s.bufByte 2 = s.addr ∧ s.bufByte 3 = s.addr ^^^ s.bufByte 1) : changeAddress s =
      pairReply .acceptChangeAddr (caReplyBytes s.params (s.bufByte 1) (s.bufByte 2) (s.bufByte 3)).1
        (caReplyBytes s.params (s.bufByte 1) (s.bufByte 2) (s.bufByte 3)).2 (readdressed (s.bufByte 1) s) := by
  rw [changeAddress_inRange h4, if_pos hvalid]; rfl

/-- A ChangeAddress request that does not validate (R176). -/
theorem changeAddress_reject {s : State} (h4 : 4 ≤ s.params.bufCap)
    (hvalid : ¬(s.bufByte 2 = s.addr ∧ s.bufByte 3 = s.addr ^^^ s.bufByte 1)) :
    changeAddress s = label .svcRejected s := by
  rw [changeAddress_inRange h4, if_neg hvalid]

/-- Settles O38: the two outcomes of the validation; the confirmation is the answer of the two bytes of CA_REPLY, of which
there is a lemma for each form. -/
theorem changeAddressValidatesThenChanges : Obligations.ChangeAddressValidatesThenChanges := by
  intro s c hw hp
  obtain ⟨h4, -⟩ := (params_wf_iff s.params).1 hp
  refine ⟨fun g => ?_, fun hvalid => ?_, fun hvalid => congrArg Host.Outcome.next (changeAddress_reject h4 hvalid)⟩
  · rw [subCommand_svcChangeAddr hp]; rfl
  · refine ⟨_, congrArg Host.Outcome.next (changeAddress_accept h4 hvalid), ?_⟩
    generalize hr : caReplyBytes s.params (s.bufByte 1) (s.bufByte 2) (s.bufByte 3) = r
    obtain ⟨h0, h1, hrest⟩ := pairReply_bufByte (s := readdressed (s.bufByte 1) s) .acceptChangeAddr r.1 r.2 hw
      (show 2 ≤ s.params.bufCap by omega)
    obtain ⟨hevents, -, hparams, hinit⟩ := pairReply_sameEnv .acceptChangeAddr r.1 r.2 (readdressed (s.bufByte 1) s)
    rw [h0, h1]
    refine ⟨pairReply_addr .., pairReply_out .., rfl, fun hform => ?_, fun q0 q1 hform => ?_, fun q0 q1 hform => ?_,
      fun rows r' hform hrow => ?_, hrest, pairReply_txRegs .., pairReply_rxRegs .., hevents, hparams, hinit⟩
    · rw [← hr, caReplyBytes_capacities hform]
      exact capBytes_exact hp
    · rw [← hr, caReplyBytes_bytes hform]
      exact ⟨rfl, rfl⟩
    · rw [← hr, caReplyBytes_request hform]
      exact ⟨caParamByte_bufByte q0 s, caParamByte_bufByte q1 s⟩
    · rw [← hr, caReplyBytes_table hform hrow]

/-! ### The selection (44_dispatch.md R170, R173) -/

/-- A dispatch runs the row that the frame kind and payload byte 0 select, whatever the checksum byte was. -/
theorem dispatch_eq_exec {s : State} (hcap : 0 < s.params.bufCap) (c : Byte) :
    dispatch s = exec (selectDispatch s.isSvc s.isGrp (subCommand s.params (s.bufByte 0)) c) s := by
  unfold dispatch selectDispatch
  by_cases hsvc : s.isSvc = true
  · rw [if_pos hsvc, if_pos hsvc, serviceDispatch, memRead_inRange hcap]
    cases hsub : subCommand s.params (s.bufByte 0) <;> simp only [hsub] <;> rfl
  · rw [if_neg hsvc, if_neg hsvc]
    split <;> rfl

/-- Under legal parameters every dispatch goes on. -/
theorem dispatch_next {s : State} (hp : s.params.wf = true) : ∃ t, dispatch s = .next t := by
  obtain ⟨r, -, -, hcall⟩ := callHandler_legal hp
  unfold dispatch
  split
  · exact ⟨_, rfl⟩
  · split
    · rw [acceptGroup, hcall]; exact ⟨_, rfl⟩
    · rw [acceptCommand, hcall]; exact ⟨_, rfl⟩

/-- Settles O26: a right checksum byte dispatches, a dispatch is the selected row (`dispatch_eq_exec`), and what the row
selects is computed from the frame kind and the sub-command of payload byte 0. -/
theorem rightChecksumRunsTheSelectedOperation : Obligations.RightChecksumRunsTheSelectedOperation := by
  intro s v hp hz u
  obtain ⟨h4, -⟩ := (params_wf_iff s.params).1 hp
  have hpass : exec (.rxCsum v) s = dispatch u := execRxCsum_pass hz
  have hrow : exec (.rxCsum v) s = exec (selectDispatch s.isSvc s.isGrp (subCommand s.params (s.bufByte 0)) v) u :=
    hpass.trans (dispatch_eq_exec (s := u) (show 0 < s.params.bufCap by omega) v)
  refine ⟨fun hsvc hgrp => ?_, fun hsvc hgrp => ?_, fun hsvc hcode => ?_, fun hsvc hcode => ?_, fun hsvc hcode => ?_,
    fun hsvc hecho hdescribe hchange => ?_, hrow, ?_⟩
  · rw [hrow, hsvc, hgrp]; rfl
  · rw [hrow, hsvc, hgrp]; rfl
  · rw [hrow, hsvc, hcode, subCommand_svcEcho]; rfl
  · rw [hrow, hsvc, hcode, subCommand_svcDescribe hp]; rfl
  · rw [hrow, hsvc, hcode, subCommand_svcChangeAddr hp]; rfl
  · rw [hrow, hsvc, subCommand_unknown hecho hdescribe hchange]; rfl
  · obtain ⟨t, ht⟩ := dispatch_next (s := u) hp
    obtain ⟨hregs, -⟩ := dispatch_frame ht
    exact ⟨t, hpass.trans ht, congrArg RxRegs.rxState hregs, congrArg RxRegs.rxSum hregs⟩

/-! ### Which bytes prime a reply (44_dispatch.md R179) -/

/-- The transmit registers after the frame that stands in `s` is dispatched: a reply's if it is answered. -/
def repliedRegs (s : State) : TxRegs :=
  if replies s = true then primedRegs (if s.isSvc then MK_SVC else MK_REG) (replyLength s) else s.txRegs

/-- A service frame is answered for Echo, for Describe and for a ChangeAddress that validates, and for nothing else. -/
theorem serviceDispatch_txRegs {s : State} (hp : s.params.wf = true) (hsvc : s.isSvc = true) :
    (serviceDispatch s).txRegs = repliedRegs s := by
  obtain ⟨h4, -, -, -, hne, hne', hne'', -⟩ := (params_wf_iff s.params).1 hp
  unfold repliedRegs replies replyLength holdsChangeAddress
  rcases serviceDispatch_cases h4 with ⟨hcode, hd⟩ | ⟨hcode, hd⟩ | ⟨hcode, hd⟩ | ⟨h1, h2, h3, hd⟩ <;> rw [hd]
  · simp [hsvc, hcode, echo]
  · simp [hsvc, hcode, describe_eq, hne.symm]
  · by_cases hvalid : s.bufByte 2 = s.addr ∧ s.bufByte 3 = s.addr ^^^ s.bufByte 1
    · rw [changeAddress_accept h4 hvalid]
      simp [hsvc, hcode, hvalid, hne'.symm]
    · rw [changeAddress_reject h4 hvalid]
      simp [hsvc, hcode, hvalid, hne'.symm, hne''.symm]
  · simp [hsvc, h1, h2, h3, unknownSubCommand]

/-- A group frame is handled and never answered (R172). -/
theorem dispatch_group_txRegs {s t : State} (hsvc : s.isSvc = false) (hgrp : s.isGrp = true)
    (h : dispatch s = .next t) : t.txRegs = s.txRegs := by
  have hgroup : dispatch s = acceptGroup s := by simp [dispatch, hsvc, hgrp]
  obtain ⟨p, r, k, -, -, rfl⟩ := acceptGroup_cases (hgroup.symm.trans h)
  rw [label_txRegs, memWriteList_txRegs]; rfl

/-- A regular frame is always answered, with OUT_CAP bytes (R171). -/
theorem dispatch_command_txRegs {s t : State} (hsvc : s.isSvc = false) (hgrp : s.isGrp = false)
    (h : dispatch s = .next t) : t.txRegs = primedRegs MK_REG (capByte s.params.outCap) := by
  have hcmd : dispatch s = acceptCommand s := by simp [dispatch, hsvc, hgrp]
  obtain ⟨p, r, k, -, -, rfl⟩ := acceptCommand_cases (hcmd.symm.trans h)
  exact prime_txRegs ..

theorem dispatch_repliedRegs {s t : State} (hp : s.params.wf = true) (h : dispatch s = .next t) :
    t.txRegs = repliedRegs s := by
  cases hsvc : s.isSvc with
  | true =>
    rw [dispatch, if_pos hsvc] at h
    obtain rfl := Host.Outcome.next.inj h
    exact serviceDispatch_txRegs hp hsvc
  | false =>
    cases hgrp : s.isGrp with
    | true => simpa [repliedRegs, replies, hsvc, hgrp] using dispatch_group_txRegs hsvc hgrp h
    | false => simpa [repliedRegs, replies, replyLength, hsvc, hgrp] using dispatch_command_txRegs hsvc hgrp h

/-- The state that has taken a right checksum byte, before the dispatch: the frame kind, the payload and its length are
those of `s` (R133). -/
def checksumTaken (e : Bool) (rest : List EvWord) (s : State) : State :=
  { s with rxState := .idle, rxSum := 0, rxEsc := e, events := rest, out := {} }

/-- Whether a reply is due, and which, is the same once the checksum byte is taken. -/
theorem repliedRegs_checksumTaken (e : Bool) (rest : List EvWord) (s : State) :
    repliedRegs (checksumTaken e rest s) = repliedRegs s := rfl

theorem step_rightChecksum {s : State} {b v : Byte} {rest : List EvWord} (he : s.events = rxWord b :: rest)
    (hv : (decodeByte s.rxEsc b).1 = .data v) (hs : s.rxState = .waitChecksum) (hz : s.rxSum + v = 0) :
    ∃ e, step s = dispatch (checksumTaken e rest s) := by
  have hrow : decodeRx s.ctx b = .rxCsum v := by
    rw [decodeRx_of_data (Prod.ext hv rfl)]
    simp only [classifyData, State.ctx, hs]
  have hsum : (arrive (rxWord b) rest s).rxSum + v = 0 := by rw [arrive_rxSum, hz]
  refine ⟨decide (s.rxEsc = false ∧ b = ESC), ?_⟩
  rw [step_rx he (rxWord_kind b), rxWord_byte, hrow]
  refine (execRxCsum_pass hsum).trans ?_
  rw [arrive_eq, rxWord_byte, rxWord_kind, if_pos rfl, checksumTaken]

/-- A step on any other byte leaves the transmit registers alone. -/
theorem step_txRegs_of_not_rightChecksum {s t : State} {b : Byte} {rest : List EvWord}
    (he : s.events = rxWord b :: rest) (h : ¬RightChecksum (decodeByte s.rxEsc b).1 s) (ht : step s = .next t) :
    t.txRegs = s.txRegs := by
  obtain ⟨t', hstep, hregs, -⟩ := receivingDoesNotTouchTheTransmitSide s b rest he
    fun v hv ⟨hs, hz⟩ => h ⟨v, hv, hs, hz⟩
  obtain rfl := Host.Outcome.next.inj (hstep.symm.trans ht)
  exact hregs

/-- Settles O48: only the right checksum byte dispatches, and the dispatch leaves the registers of the reply that is due
(`dispatch_repliedRegs`). -/
theorem repliesArePrimedExactlyWhenDue : Obligations.RepliesArePrimedExactlyWhenDue := by
  intro s t b rest hp he ht
  by_cases hright : RightChecksum (decodeByte s.rxEsc b).1 s
  · obtain ⟨v, hv, hs, hz⟩ := hright
    obtain ⟨e, hstep⟩ := step_rightChecksum he hv hs hz
    have hregs : t.txRegs = repliedRegs s := by
      rw [← repliedRegs_checksumTaken e rest s]
      exact dispatch_repliedRegs hp (hstep.symm.trans ht)
    refine ⟨fun ⟨_, _, _, _, hdue⟩ => ?_, fun hnot => ?_⟩
    · rw [hregs, repliedRegs, if_pos hdue]
    · rw [hregs, repliedRegs, if_neg fun hdue => hnot ⟨v, hv, hs, hz, hdue⟩]
  · exact ⟨fun ⟨v, hv, hs, hz, _⟩ => absurd ⟨v, hv, hs, hz⟩ hright,
      fun _ => step_txRegs_of_not_rightChecksum he hright ht⟩

/-- A step on a received byte emits nothing, dispatch or not. -/
theorem step_rxWord_wire {s t : State} {b : Byte} {rest : List EvWord} (he : s.events = rxWord b :: rest)
    (ht : step s = .next t) : t.out.wire = none := by
  rw [step_eq_rxStep he (rxWord_kind b)] at ht
  rcases rxStep_cases ht with rfl | ⟨v, -, -, rfl⟩ | ⟨v, -, -, -, hd⟩
  · simp
  · simp
  · obtain ⟨-, -, -, hwire, -⟩ := dispatch_frame hd
    simp [hwire]

/-- Settles O49: in a group frame the right checksum byte runs the one operation that does not prime
(`dispatch_group_txRegs`), and every other byte leaves the transmit registers alone. -/
theorem groupFramesNeverPrime : Obligations.GroupFramesNeverPrime := by
  intro s t b rest he hsvc hgrp ht
  refine ⟨?_, step_rxWord_wire he ht⟩
  by_cases hright : RightChecksum (decodeByte s.rxEsc b).1 s
  · obtain ⟨v, hv, hs, hz⟩ := hright
    obtain ⟨e, hstep⟩ := step_rightChecksum he hv hs hz
    exact dispatch_group_txRegs (s := checksumTaken e rest s) hsvc hgrp (hstep.symm.trans ht)
  · exact step_txRegs_of_not_rightChecksum he hright ht

end Sys2Proof.Machine

/-! The statement of 60_exceptions.md: every event has a step, which has taken its word off the port (R200). -/

namespace Sys2Proof.Machine

/-! ### What no step changes (log 3, 00_scope.md R12) -/

theorem dispatch_events {s t : State} (h : dispatch s = .next t) : t.events = s.events := by
  obtain ⟨a, r, st, hc, k, bs, l, -, rfl | ⟨m, n, -, rfl⟩⟩ := dispatch_form h <;> simp

/-- Whatever the byte, once its word is taken the port and the parameters stay as they are. -/
theorem rxStep_keeps {c : RxClass} {s t : State} (h : rxStep c s = .next t) :
    t.events = s.events ∧ t.params = s.params := by
  rcases rxStep_cases h with rfl | ⟨v, -, -, rfl⟩ | ⟨v, rfl, -, -, hd⟩
  · exact ⟨rfl, rfl⟩
  · exact ⟨memWrite_events .., memWrite_params ..⟩
  · obtain ⟨-, hparams, -⟩ := dispatch_frame hd
    exact ⟨dispatch_events (s := afterRx (.data v) s) hd, hparams⟩

/-- A step that takes an event word takes that word alone, and leaves the parameters as they are. -/
theorem step_takes_word {s t : State} {w : EvWord} {rest : List EvWord} (he : s.events = w :: rest)
    (h : step s = .next t) : t.events = rest ∧ t.params = s.params := by
  rcases step_cases h with ⟨hnil, -⟩ | ⟨w', rest', he', hevent⟩
  · exact absurd (hnil.symm.trans he) nofun
  obtain ⟨rfl, rfl⟩ := List.cons.inj (he'.symm.trans he)
  have hport : (arrive w' rest' s).events = rest' := arrive_events ..
  have hpar : (arrive w' rest' s).params = s.params := arrive_params ..
  rcases hevent with ⟨-, hrx⟩ | ⟨-, d, k, rfl⟩ | ⟨-, hreset⟩
  · obtain ⟨hevents, hparams⟩ := rxStep_keeps hrx
    exact ⟨hevents.trans hport, hparams.trans hpar⟩
  · exact ⟨hport, hpar⟩
  · obtain rfl := Host.Outcome.next.inj hreset
    exact ⟨hport, hpar⟩

/-! ### Every event has a step (60_exceptions.md R200) -/

/-- Under legal parameters every received byte goes on: the only operation that can stop is the dispatch of a frame that
passed, and there the handler keeps its contract (44_dispatch.md R178). -/
theorem rxStep_next (c : RxClass) {s : State} (hp : s.params.wf = true) : ∃ t, rxStep c s = .next t := by
  by_cases hright : RightChecksum c s
  · obtain ⟨v, rfl, hs, hz⟩ := hright
    have hpass : rxStep (.data v) s = dispatch (afterRx (.data v) s) := by simp only [rxStep, hs, if_pos hz]
    rw [hpass]
    exact dispatch_next (s := afterRx (.data v) s) hp
  · exact ⟨_, rxStep_eq_takeRx hright⟩

/-- Settles O14: a received byte goes on by `rxStep_next`, a tick and a Reset always do, and kind 11 is the reserved one;
the port and the parameters after the step are those of `step_takes_word`. -/
theorem everyEventHasAStep : Obligations.EveryEventHasAStep := by
  intro s w rest hp he hkind
  have hnext : ∃ t, step s = .next t := by
    rcases kind_cases w.kind with hk | hk | hk | hk
    · rw [step_eq_rxStep he hk]
      exact rxStep_next _ (by rwa [arrive_params])
    · obtain ⟨k, hstep⟩ := step_eq_afterTx he hk
      exact ⟨_, hstep⟩
    · exact ⟨_, step_reset he hk⟩
    · exact absurd hk hkind
  obtain ⟨t, ht⟩ := hnext
  exact ⟨t, ht, step_takes_word he ht⟩

end Sys2Proof.Machine

/-! The statements of 70_reset_and_hazards.md: the Reset event (R220), idle steps (R239), a marker byte swallowed by a
dangling escape (R233), and the buffer that requests and replies share (R231). -/

namespace Sys2Proof.Machine

/-! ### The Reset event and idle steps (R220, R239) -/

/-- Settles O8: the fields `execReset` writes, and an empty list of cells, which reads as the draw everywhere. -/
theorem resetEventReinitialises : Obligations.ResetEventReinitialises :=
  ⟨fun _ _ hk => decode_of_reset hk, fun s => ⟨_, rfl, rfl, rfl, rfl, rfl, rfl, rfl, rfl, rfl, rfl,
    fun _ hi => unlistedByte_drawBuffer s.draws hi, rfl, rfl, rfl, rfl, rfl⟩⟩

/-- The Reset event loads the address from the store (R220). -/
theorem exec_reset_addr {s t : State} (h : exec .reset s = .next t) : t.addr = s.storeRdata := by
  obtain rfl := Host.Outcome.next.inj h
  rfl

/-- Settles O9: an accepted ChangeAddress leaves its new address in the store, and the confirmation does not touch the
store. That the store then presents it is the model's choice (log 10). -/
theorem persistedAddressOutlivesReset : Obligations.PersistedAddressOutlivesReset := by
  intro s t u c hp hecho hcheck ht hu
  obtain ⟨h4, -⟩ := (params_wf_iff s.params).1 hp
  obtain rfl : changeAddress s = t := Host.Outcome.next.inj ht
  rw [exec_reset_addr hu, changeAddress_accept h4 ⟨hecho, hcheck⟩]
  obtain ⟨-, hstore, -⟩ := pairReply_sameEnv .acceptChangeAddr
    (caReplyBytes s.params (s.bufByte 1) (s.bufByte 2) (s.bufByte 3)).1
    (caReplyBytes s.params (s.bufByte 1) (s.bufByte 2) (s.bufByte 3)).2 (readdressed (s.bufByte 1) s)
  exact hstore

/-- Settles O13: a step looks at the port first, and with nothing there only empties the output record (log 1). -/
theorem stepWithoutEventIsIdle : Obligations.StepWithoutEventIsIdle := by
  intro s he
  simp only [step, he, idleStep]

/-! ### A dangling escape (R233) -/

/-- Whatever byte is taken under the escape flag, of the receive registers taking it clears the flag and no more. -/
theorem arrive_rxRegs_of_rxEsc {s : State} (b : Byte) (rest : List EvWord) (he : s.rxEsc = true) :
    (arrive (rxWord b) rest s).rxRegs = { s.rxRegs with rxEsc := false } := by
  simp [arrive_rxRegs, he]

/-- A step under the escape flag does to the receive registers what a data byte does, whatever the wire byte (R80). -/
theorem step_rxRegs_of_rxEsc {s t : State} {b : Byte} {rest : List EvWord} (hesc : s.rxEsc = true)
    (he : s.events = rxWord b :: rest) (h : step s = .next t) :
    t.rxRegs = rxNext s.addr (.data (b - SHIFT)) { s.rxRegs with rxEsc := false } := by
  have hclass : (decodeByte s.rxEsc b).1 = .data (b - SHIFT) := by rw [hesc]; rfl
  rw [step_eq_rxStep he (rxWord_kind b), rxWord_byte, hclass] at h
  rw [rxStep_rxRegs h, arrive_addr, arrive_rxRegs_of_rxEsc b rest hesc]

/-- In Idle a byte that decodes to data is taken, and that is all (R126). -/
theorem step_idleData {s : State} {b v : Byte} {rest : List EvWord} (hs : s.rxState = .idle)
    (he : s.events = rxWord b :: rest) (hv : (decodeByte s.rxEsc b).1 = .data v) :
    step s = .next (arrive (rxWord b) rest s) := by
  obtain ⟨hreads, hexec, -⟩ := idleEventsChangeNothing (arrive (rxWord b) rest s) v
  rw [step_of_decode he (hreads s.ctx b hs hv), hexec]

/-- Settles O54: after a prefix the marker byte is data like any other, data writes no frame-kind flag, and in Idle it
is ignored. -/
theorem danglingEscapeEatsTheMarker : Obligations.DanglingEscapeEatsTheMarker := by
  intro s t m rest hesc he h
  obtain ⟨hrow, hdata⟩ := byteAfterPrefixIsData s.ctx m.byte hesc
  have hregs := step_rxRegs_of_rxEsc hesc he h
  obtain ⟨hsvc, hgrp⟩ := rxNext_data_kind s.addr (m.byte - SHIFT) { s.rxRegs with rxEsc := false }
  refine ⟨hrow, (congrArg RxRegs.isSvc hregs).trans hsvc, (congrArg RxRegs.isGrp hregs).trans hgrp,
    (congrArg RxRegs.rxEsc hregs).trans (rxNext_data_rxEsc ..), fun hidle => ?_⟩
  rw [step_idleData hidle he (by rw [hesc, hdata])] at h
  obtain rfl := Host.Outcome.next.inj h
  exact ⟨arrive_rxRegs_of_rxEsc m.byte rest hesc, arrive_out ..⟩

/-! ### The shared buffer (R231) -/

/-- A step on a payload byte with room in the buffer stores it and leaves the transmit side alone (R132). -/
theorem step_payloadByte {s : State} {b v : Byte} {rest : List EvWord} (hw : Memory.wf s = true)
    (he : s.events = rxWord b :: rest) (hv : (decodeByte s.rxEsc b).1 = .data v) (hs : s.rxState = .waitData)
    (hroom : s.rxIdx.toNat < s.params.bufCap) :
    ∃ t, step s = .next t ∧ t.events = rest ∧ t.params = s.params ∧ t.txRegs = s.txRegs ∧ t.addr = s.addr ∧
      t.bufByte s.rxIdx.toNat = v := by
  obtain ⟨hreads, t, hexec, -, htx, haddr, ⟨hevents, -, hparams, -⟩, hstored, -⟩ :=
    payloadByteIsSummedCountedAndStored (arrive (rxWord b) rest s) v ((arrive_wf ..).trans hw)
  simp only [arrive_rxIdx, arrive_params, arrive_events, arrive_txRegs,
    arrive_addr] at htx haddr hevents hparams hstored
  obtain ⟨-, hbyte, -⟩ := hstored hroom
  exact ⟨t, (step_of_decode he (hreads s.ctx b hs hv)).trans hexec, hevents, hparams, htx, haddr, hbyte⟩

/-- The transmit registers after payload byte `v` is sent and summed (R157). -/
def payloadSent (v : Byte) (x : TxRegs) : TxRegs :=
  { x with txSum := x.txSum + v, txIdx := x.txIdx + 1, txEsc := false }

/-- A step on a tick that sends payload from below BUF_CAP sends the byte that is in the buffer at that tick (R157). -/
theorem step_payloadTick {s : State} {w : EvWord} {rest : List EvWord} (he : s.events = w :: rest)
    (hk : w.kind = KIND_TICK) (hs : s.txState = .sendData) (hmore : s.txIdx < s.txLen)
    (hroom : s.txIdx.toNat < s.params.bufCap) :
    ∃ t, step s = .next t ∧
      SendsByte (arrive w rest s) t (s.bufByte s.txIdx.toNat) (payloadSent (s.bufByte s.txIdx.toNat) s.txRegs) := by
  have hregs : (arrive w rest s).txRegs = s.txRegs := arrive_txRegs ..
  have hidx : (arrive w rest s).txIdx = s.txIdx := congrArg TxRegs.txIdx hregs
  have hsum : (arrive w rest s).txSum = s.txSum := congrArg TxRegs.txSum hregs
  obtain ⟨hreads, hexec⟩ := dataTickSendsTheBufferByte
  obtain ⟨t, v, ht, hread, hsends⟩ := hexec (arrive w rest s)
  simp only [hregs, hidx, hsum, arrive_params, arrive_bufByte] at hread hsends
  obtain rfl := hread hroom
  exact ⟨t, (step_of_decode he (hreads s.ctx w ⟨hs, decide_eq_true hmore⟩ hk)).trans ht, hsends⟩

/-- Complete or half of an escape pair, sending a byte leaves the receive registers, the address and the buffer
alone. -/
theorem SendsByte.frame {s t : State} {v : Byte} {x : TxRegs} (h : SendsByte s t v x) :
    t.rxRegs = s.rxRegs ∧ t.addr = s.addr ∧ SameBuffer s t := by
  obtain ⟨hplain, hfirst, hsecond⟩ := h
  have heffect : ∃ y o, TxEffect s t y o := by
    cases hesc : s.txEsc with
    | true => exact ⟨_, _, hsecond hesc⟩
    | false =>
      by_cases hv : v ≤ MK_MAX
      · exact ⟨_, _, hfirst ⟨hesc, hv⟩⟩
      · exact ⟨_, _, hplain ⟨hesc, BitVec.not_le.1 hv⟩⟩
  obtain ⟨y, o, -, -, hrx, haddr, hbuf, -⟩ := heffect
  exact ⟨hrx, haddr, hbuf⟩

/-- The registers once the byte is complete: at its second half, or at once if it is not escaped. -/
theorem SendsByte.complete {s t : State} {v : Byte} {x : TxRegs} (h : SendsByte s t v x)
    (hdone : s.txEsc = true ∨ MK_MAX < v) : t.txRegs = x := by
  obtain ⟨hplain, -, hsecond⟩ := h
  cases hesc : s.txEsc with
  | true => exact (hsecond hesc).1
  | false => exact (hplain ⟨hesc, hdone.resolve_left (by simp [hesc])⟩).1

/-- Settles O60: the payload byte is stored at the index the reply reads next (`step_payloadByte`), and the tick reads
the buffer as it is then (`step_payloadTick`). -/
theorem payloadByteReplacesTheReplyByte : Obligations.PayloadByteReplacesTheReplyByte := by
  intro s b v w rest hw he hk hv hrx htx hmore hsame hroom
  obtain ⟨t, ht, hevents, hparams, hregs, haddr, hbyte⟩ := step_payloadByte hw he hv hrx (hsame ▸ hroom)
  rw [hsame] at hbyte
  have htxState : t.txState = s.txState := congrArg TxRegs.txState hregs
  have htxLen : t.txLen = s.txLen := congrArg TxRegs.txLen hregs
  have htxIdx : t.txIdx = s.txIdx := congrArg TxRegs.txIdx hregs
  obtain ⟨u, hu, hsends⟩ := step_payloadTick hevents hk (htxState.trans htx) (by rwa [htxIdx, htxLen])
    (by rwa [htxIdx, hparams])
  rw [htxIdx, hbyte, hregs] at hsends
  have htaken : (arrive w rest t).txRegs = s.txRegs := (arrive_txRegs ..).trans hregs
  have hesc : (arrive w rest t).txEsc = s.txEsc := congrArg TxRegs.txEsc htaken
  obtain ⟨hframe, haddr', hbuf⟩ := hsends.frame
  have hdone := hsends.complete
  obtain ⟨hplain, hfirst, hsecond⟩ := hsends
  rw [hesc] at hplain hfirst hsecond hdone
  refine ⟨t, u, ht, hregs, hbyte, hu, ?_, haddr'.trans ((arrive_addr ..).trans haddr),
    fun i => (hbuf i).trans (arrive_bufByte ..), fun h => ?_, fun h => ?_, fun h => ?_, hdone⟩
  · rw [hframe, arrive_eq, if_neg (by simp [hk, KIND_RX, KIND_TICK])]; rfl
  · obtain ⟨-, hout, -⟩ := hplain h
    rw [hout]
  · obtain ⟨hx, hout, -⟩ := hfirst h
    exact ⟨by rw [hout], by rw [hx, htaken]⟩
  · obtain ⟨-, hout, -⟩ := hsecond h
    rw [hout]

end Sys2Proof.Machine
